-- ==== Sys2Proof/Word.lean ====
section
/-! DEFINITION. The block's two word types. Every peripheral register and every transmitted or received
byte is 8 bits, every command word and every host register 16 bits (00_scope.md R5). -/

namespace Sys2Proof

/-- A peripheral register or a byte on the bus (`PREG_WIDTH`, R5). -/
abbrev Byte := BitVec 8

/-- A command word or a host register (`CMD_WIDTH`, `HREG_WIDTH`, R5). -/
abbrev Word := BitVec 16

end Sys2Proof
end

