-- ==== Sys2Proof/Syntax.lean ====
section
/-! DEFINITION. The commands of the block (30_encoding.md R106), one constructor per row of
spec/opcode_table.json, and the assembler's lines (R109, R110). -/

namespace Sys2Proof

/-- Which of the two readings a decoder step or measurement concerns: the selector `s` of R104
(`rh` is s = 0, `t` is s = 1). -/
inductive Reading where
  | rh
  | t
deriving DecidableEq, Repr

/-- A command. The operands have the widths of their fields (R100, R102, R103, R105), so every value of
this type is an instruction of R106. -/
inductive Instr where
  /-- R132: wait until the peripheral is idle. -/
  | waitIdle
  /-- R133: issue a start condition. -/
  | start
  /-- R134: issue a repeated start. -/
  | rstart
  /-- R135: release the bus. -/
  | stop
  /-- R136: transmit the byte `b` (`imm8`). -/
  | send (b : Byte)
  /-- R139: receive a byte into B0 (`d` false) or B1 (`d` true), then ACK (`a` true) or NACK (`a` false). -/
  | recv (a d : Bool)
  /-- R145: busy-wait `n` milliseconds. -/
  | delay (n : BitVec 12)
  /-- R144: load the divisor `v` (`imm8`) and enable the peripheral. -/
  | init (v : Byte)
  /-- R161: assemble the humidity raw value. -/
  | asmRh
  /-- R162: assemble the temperature raw value. -/
  | asmT
  /-- R165: convert RAW_RH. -/
  | decRh
  /-- R169: convert RAW_T. -/
  | decT
  /-- R172: emit the humidity string. -/
  | fmtRh
  /-- R174: emit the temperature string. -/
  | fmtT
  /-- R191: one humidity reading. -/
  | measRh
  /-- R192: one temperature reading. -/
  | measT
  /-- R193: one full sensor cycle. -/
  | cycle
deriving DecidableEq, Repr

/-- A line of the assembler before its operands are checked: the forms of R109 and the pseudo-instructions
of R110. Numbers are as written, so they can be out of range. -/
inductive AsmLine where
  | waitIdle
  | start
  | rstart
  | stop
  | send (b : Nat)
  | recv (ack : Bool) (d : Nat)
  | delay (n : Nat)
  | init (v : Nat)
  | asm (r : Reading)
  | decRh
  | decT
  | fmtRh
  | fmtT
  | meas (r : Reading)
  | cycle
  | sendW
  | sendR
  | sendCmd (r : Reading)
  | recvA (d : Nat)
  | recvN (d : Nat)
  | decode (r : Reading)
deriving DecidableEq, Repr

end Sys2Proof
end

