-- ==== Sys2Proof/Decode.lean ====
section
/-! DEFINITION. The decoder, total on all 65536 words (30_encoding.md R106 to R108), and the encoder. -/

namespace Sys2Proof

/-- Why a word is illegal: the two kinds of R107. -/
inductive DecodeError where
  /-- Opcode 0x0, the word 0x0000 included. -/
  | opcodeZero
  /-- A defined opcode with a reserved bit set. -/
  | reservedBitSet
deriving DecidableEq, Repr

/-! The fields of R100. -/

/-- `op = w[15:12]`. -/
def opField (w : Word) : BitVec 4 := w.extractLsb' 12 4

/-- `imm8 = w[7:0]` (R102). -/
def imm8Field (w : Word) : Byte := w.extractLsb' 0 8

/-- `a = w[8]` (R103). -/
def aField (w : Word) : Bool := w.getLsbD 8

/-- `d = w[9]` (R103). -/
def dField (w : Word) : Bool := w.getLsbD 9

/-- `n = w[11:0]` (R105). -/
def nField (w : Word) : BitVec 12 := w.extractLsb' 0 12

/-- A row of the match and mask table of R106: a word `w` selects it when `(w & mask) == bits`. -/
structure OpRow where
  bits : Word
  mask : Word
  build : Word → Instr

/-- The word selects the row (R106). -/
def OpRow.selects (r : OpRow) (w : Word) : Bool := w &&& r.mask == r.bits

/-- The rows of R106 for the bus-phase primitives. -/
def busRows : List OpRow :=
  [⟨0x1000, 0xFFFF, fun _ => .waitIdle⟩,
   ⟨0x2000, 0xFFFF, fun _ => .start⟩,
   ⟨0x3000, 0xFFFF, fun _ => .rstart⟩,
   ⟨0x4000, 0xFFFF, fun _ => .stop⟩,
   ⟨0x5000, 0xFF00, fun w => .send (imm8Field w)⟩,
   ⟨0x6000, 0xFCFF, fun w => .recv (aField w) (dField w)⟩,
   ⟨0x7000, 0xF000, fun w => .delay (nField w)⟩,
   ⟨0x8000, 0xFF00, fun w => .init (imm8Field w)⟩]

/-- The rows of R106 for the decoder and the sequencer. -/
def readingRows : List OpRow :=
  [⟨0x9000, 0xFFFF, fun _ => .asmRh⟩,
   ⟨0x9001, 0xFFFF, fun _ => .asmT⟩,
   ⟨0xA000, 0xFFFF, fun _ => .decRh⟩,
   ⟨0xB000, 0xFFFF, fun _ => .decT⟩,
   ⟨0xC000, 0xFFFF, fun _ => .fmtRh⟩,
   ⟨0xD000, 0xFFFF, fun _ => .fmtT⟩,
   ⟨0xE000, 0xFFFF, fun _ => .measRh⟩,
   ⟨0xE001, 0xFFFF, fun _ => .measT⟩,
   ⟨0xF000, 0xFFFF, fun _ => .cycle⟩]

/-- The opcode map (R106). -/
def opRows : List OpRow := busRows ++ readingRows

/-- `decode(w)` of R108: the one row that matches, or ILLEGAL with its kind (R107). -/
def decode (w : Word) : Except DecodeError Instr :=
  match opRows.find? (fun r => r.selects w) with
  | some r => .ok (r.build w)
  | none => .error (if opField w = 0 then .opcodeZero else .reservedBitSet)

/-- The instruction the decoder reads from the table word `w` of `nbits` bits: every bit above `nbits` is 0
and a command is one 16-bit word (R101), so a longer word is no command. -/
def decodeTableWord (nbits w : Nat) : Option Instr :=
  if nbits ≤ 16 then
    match decode (BitVec.ofNat 16 (w % 2 ^ nbits)) with
    | .ok i => some i
    | .error _ => none
  else none

/-- The word of a command, from the forms of R109. -/
def encode : Instr → Word
  | .waitIdle => 0x1000
  | .start => 0x2000
  | .rstart => 0x3000
  | .stop => 0x4000
  | .send b => 0x5000 ||| b.setWidth 16
  | .recv a d => 0x6000 ||| ((BitVec.ofBool d).setWidth 16 <<< 9) ||| ((BitVec.ofBool a).setWidth 16 <<< 8)
  | .delay n => 0x7000 ||| n.setWidth 16
  | .init v => 0x8000 ||| v.setWidth 16
  | .asmRh => 0x9000
  | .asmT => 0x9001
  | .decRh => 0xA000
  | .decT => 0xB000
  | .fmtRh => 0xC000
  | .fmtT => 0xD000
  | .measRh => 0xE000
  | .measT => 0xE001
  | .cycle => 0xF000

end Sys2Proof
end

