-- ==== Sys2Proof/Config.lean ====
section
/-! DEFINITION. What the spec leaves OPEN (00_scope.md R5) and the free values. An opaque constant has no
value a proof can see, so a statement about it holds whatever it is. -/

namespace Sys2Proof

/-- The OPEN parameters of R5 that some rule reads, taken as an argument of the model: `State.cfg` carries
them and no step writes them (log 3). `sensorAddr7` is 7 bits, so a configuration with `SENSOR_ADDR7`
above 0x7F cannot be built (U20; `Machine.configOf` refuses it). -/
structure Config where
  /-- `SENSOR_ADDR7`, the 7-bit slave address (R5, D9). -/
  sensorAddr7 : BitVec 7
  /-- `CMD_RH`, the humidity command byte (R5, D9). -/
  cmdRh : Byte
  /-- `CMD_T`, the temperature command byte (R5, D9). -/
  cmdT : Byte
  /-- `PERIPH_FAIR`: every pending peripheral operation eventually completes (R5, R234, D22). -/
  periphFair : Bool
deriving DecidableEq, Repr

namespace Config

/-! The parameters of the chip at hand: R5 gives no value, so they are opaque. `State.reset` carries them. -/

opaque openSensorAddr7 : BitVec 7
opaque openCmdRh : Byte
opaque openCmdT : Byte
opaque openPeriphFair : Bool

/-- The configuration of the chip at hand; nothing about it is known (log 3). -/
def chip : Config := ⟨openSensorAddr7, openCmdRh, openCmdT, openPeriphFair⟩

/-! The OPEN parameters of R5 that no rule of the block reads (R34, R71, R80). -/

/-- `DIV_TO_FSCL`: the bus frequency in Hz a divisor selects (D10). -/
opaque divToFscl : Byte → Nat

/-- `P_BASE`: the base address of the peripheral registers (D5). -/
opaque pBase : Nat

/-- `H_BASE`: the base address of the host registers (D20). -/
opaque hBase : Nat

/-! Free values: the spec says a value results and does not say which. Each is applied to the counter
`State.draws`, which the step that uses it advances (log 5, 6, 7). -/

/-- `draw8()` when the environment has named no byte (R8, R231), and the byte registers after a later reset. -/
opaque freeByte : Nat → Byte

/-- `draw1()` when the environment has named no acknowledge bit (R8, R231). -/
opaque freeBit : Nat → Bool

/-- The raw registers after a later reset (R56). -/
opaque freeRaw : Nat → BitVec 14

/-- A host read of an unwritten result register (R50, U1), and RH and TC after a later reset (R56). -/
opaque freeWord : Nat → Word

end Config

end Sys2Proof
end

