-- ==== Sys2Proof/Machine/State.lean ====
section
/-! DEFINITION. The state of the machine (10_state.md R30), its fault record, the inputs and the schedule
still to come, the model's own stops, and the state at launch. -/

namespace Sys2Proof.Machine

/-- The transaction state TXN (R40). Codes 6 and 7 are "never reached" and have no value here (log 17). -/
inductive Txn where
  /-- code 0: no transaction open. -/
  | idle
  /-- code 1: the next SEND is the address byte. -/
  | addr
  /-- code 2: the slave was addressed for write. -/
  | write
  /-- code 3: the slave was addressed for read, no byte received yet. -/
  | read
  /-- code 4: the last RECV acknowledged; one more RECV is owed. -/
  | readMore
  /-- code 5: the last RECV did not acknowledge; STOP is next. -/
  | readDone
deriving DecidableEq, Repr

/-- The fault codes recorded in FAULT (R211). -/
inductive FaultCode where
  | none
  | illegal
  | notEnabled
  | noTxn
  | txnOpen
  | sequence
  | direction
  | unwritten
deriving DecidableEq, Repr

/-- A bus event of BUSLOG (R53). Bits are `true` for 1, that is NACK (R31, R32). -/
inductive BusEvent where
  | start
  | rstart
  | stop
  | tx (b : Byte) (ackstat : Bool)
  | rx (b : Byte)
  | ackout (v : Bool)
deriving DecidableEq, Repr

/-- The six completion steps of the peripheral (R230). -/
inductive PeriphOp where
  | pStart
  | pRstart
  | pStop
  | pRx
  | pAck
  | pTx
deriving DecidableEq, Repr

/-- One step of one agent (R6), or an environment action the spec refuses (R235, R236). -/
inductive Turn where
  /-- The driver's next μop (R44). -/
  | driver
  /-- A completion step of the peripheral (R230). -/
  | periph (op : PeriphOp)
  /-- The host reads a host register (R236). -/
  | read (off : BitVec 4)
  /-- The host writes a host register; offset 0 is CMD, an issue (R236). -/
  | write (off : BitVec 4) (v : Word)
  /-- The host consumes OUT (R236). -/
  | consume
  /-- The host resets the block (R240). -/
  | reset
  /-- A partial-width, byte-lane or misaligned host access (R77): refused. -/
  | partialAccess
  /-- A host access to the peripheral registers (R236): refused. -/
  | peripheralAccess
  /-- Traffic of another bus master (R235, U12): refused. -/
  | otherMaster
deriving DecidableEq, Repr

/-- The state: the parts (1) to (4) of R30, then the model's own fields. -/
structure State where
  /-- P_CTRL (R31). -/
  pCtrl : Byte
  /-- P_STAT (R32). -/
  pStat : Byte
  /-- P_DATA (R33). -/
  pData : Byte
  /-- P_DIV (R34). -/
  pDiv : Byte
  /-- B0 (R35). -/
  b0 : Byte
  /-- B1 (R35). -/
  b1 : Byte
  /-- RAW_RH (R35). -/
  rawRh : BitVec 14
  /-- RAW_T (R35). -/
  rawT : BitVec 14
  /-- RH, two's complement (R35). -/
  rh : Word
  /-- TC, two's complement (R35). -/
  tc : Word
  /-- V_B0 (R36). -/
  vB0 : Bool
  /-- V_B1 (R36). -/
  vB1 : Bool
  /-- V_RAW_RH (R36). -/
  vRawRh : Bool
  /-- V_RAW_T (R36). -/
  vRawT : Bool
  /-- V_RH (R36). -/
  vRh : Bool
  /-- V_TC (R36). -/
  vTc : Bool
  /-- TXN (R40). -/
  txn : Txn
  /-- FAULT (R41). -/
  fault : FaultCode
  /-- FCMD (R41). -/
  fcmd : Word
  /-- HALT (R41). -/
  halt : Bool
  /-- CUR (R42). -/
  cur : Word
  /-- BUSY, the block's (R42). -/
  busy : Bool
  /-- PH (R43). -/
  ph : BitVec 5
  /-- MPH (R43). -/
  mph : BitVec 3
  /-- OUT, the display stream, first byte first (R52). -/
  out : List Byte
  /-- BUSLOG, ghost, oldest event first (R53). -/
  busLog : List BusEvent
  /-- ELAPSED_MS, ghost (R54). -/
  elapsedMs : Nat
  /-- The model's own: the OPEN parameters (R5, log 3). -/
  cfg : Config
  /-- The model's own: the agent steps and inputs still to come, oldest first (R6, log 1). -/
  turns : List Turn
  /-- The model's own: the bytes the slave will answer, oldest first (R231, log 6). -/
  rxIn : List Byte
  /-- The model's own: the slave acknowledge bits to come, oldest first (R231, log 6). -/
  ackIn : List Bool
  /-- The model's own: how many free values have been used (log 6). -/
  draws : Nat
  /-- The model's own: the value the last host read returned (R236, log 8). -/
  rdata : Word
deriving DecidableEq, Repr

/-- The model's own stops of a step. None of them is a fault of the spec: those are recorded in the state
(R212) and the machine goes on. -/
inductive Fault where
  /-- Raised by the driver's turn when PH or MPH points past the running command's lists. No run from
  reset gets there (R47). Safe (log 10). -/
  | phaseOutOfRange
  /-- Raised by a SEND's P_DATA write when EN = 0, whose "effect ... is not specified and is not reached"
  (R78, U19). Safe (log 9). -/
  | dataWriteWhileDisabled
deriving DecidableEq, Repr

/-- What the model gives no meaning. -/
inductive Refusal where
  /-- Raised by an instruction that has no meaning yet. Safe. -/
  | notModelled (mnemonic : String)
  /-- Raised by a partial-width, byte-lane or misaligned host access (R77, R236, U15). Safe (log 13). -/
  | partialHostAccess
  /-- Raised by a host access to the peripheral registers (R236, U15). Safe (log 13). -/
  | hostPeripheralAccess
  /-- Raised by traffic of another bus master (R235, U12). Safe (log 13). -/
  | otherBusMaster
deriving DecidableEq, Repr

/-- The state at launch: R56, with the launch premise on the peripheral (R241). The data registers, "any
value" there, hold 0 (log 4); the model's own fields are empty and the OPEN parameters opaque (log 3). -/
def State.reset : State where
  pCtrl := 0
  pStat := 0
  pData := 0
  pDiv := 0
  b0 := 0
  b1 := 0
  rawRh := 0
  rawT := 0
  rh := 0
  tc := 0
  vB0 := false
  vB1 := false
  vRawRh := false
  vRawT := false
  vRh := false
  vTc := false
  txn := .idle
  fault := .none
  fcmd := 0
  halt := false
  cur := 0
  busy := false
  ph := 0
  mph := 0
  out := []
  busLog := []
  elapsedMs := 0
  cfg := Config.chip
  turns := []
  rxIn := []
  ackIn := []
  draws := 0
  rdata := 0

end Sys2Proof.Machine
end

