-- ==== Sys2Proof/Machine/Operands.lean ====
section
/-! DEFINITION. Operand forms: the address and command bytes of a measurement (R137, R194), the byte file
(R35, R103), the acknowledge value (R140) and the codes of TXN and FAULT (R40, R211). -/

namespace Sys2Proof.Machine

/-- The address byte: `b[7:1]` the slave address, `b[0]` the direction, 1 = read (R137). -/
def addressByte (a : BitVec 7) (isRead : Bool) : Byte := a ++ BitVec.ofBool isRead

/-- The direction bit of an address byte: `true` is read (R137). -/
def directionIsRead (b : Byte) : Bool := b.getLsbD 0

/-- `ADDR_W` (R194). -/
def addrW (c : Config) : Byte := addressByte c.sensorAddr7 false

/-- `ADDR_R` (R194). -/
def addrR (c : Config) : Byte := addressByte c.sensorAddr7 true

/-- `CMD[s]` (R194): the command byte of a reading. -/
def cmdByte (c : Config) : Reading → Byte
  | .rh => c.cmdRh
  | .t => c.cmdT

/-- The acknowledge value a RECV sends: 0 (ACK) exactly when `a = 1` (R140). -/
def ackValue (a : Bool) : Bool := !a

/-- `B[d] <- v; V_Bd <- 1` (R8, R44): d = 0 is B0, d = 1 is B1 (R103). -/
def writeByteReg (d : Bool) (v : Byte) (s : State) : State :=
  if d then { s with b1 := v, vB1 := true } else { s with b0 := v, vB0 := true }

/-- The 3-bit code of TXN (R40). -/
def txnCode : Txn → BitVec 3
  | .idle => 0
  | .addr => 1
  | .write => 2
  | .read => 3
  | .readMore => 4
  | .readDone => 5

/-- The 3-bit code of FAULT (R211). -/
def faultCode : FaultCode → BitVec 3
  | .none => 0
  | .illegal => 1
  | .notEnabled => 2
  | .noTxn => 3
  | .txnOpen => 4
  | .sequence => 5
  | .direction => 6
  | .unwritten => 7

/-- A configuration from plain numbers; one with `SENSOR_ADDR7` above 0x7F is refused (R5, D9, U20), as are
command bytes wider than 8 bits. -/
def configOf (sensorAddr7 cmdRh cmdT : Nat) (periphFair : Bool) : Option Config :=
  if sensorAddr7 ≤ 0x7F ∧ cmdRh ≤ 0xFF ∧ cmdT ≤ 0xFF then
    some ⟨BitVec.ofNat 7 sensorAddr7, BitVec.ofNat 8 cmdRh, BitVec.ofNat 8 cmdT, periphFair⟩
  else none

end Sys2Proof.Machine
end

