-- ==== Sys2Proof/Machine/Flags.lean ====
section
/-! DEFINITION. The flags (10_state.md R49): the fields of P_CTRL and P_STAT (R31, R32), `idle(P)` (R37),
the valid bits a command reads or clears (R36, R190) and the STATUS and SEQ words (R50, R51). -/

namespace Sys2Proof.Machine

/-- The trigger bits of P_CTRL (R31, bits 0 to 4). -/
inductive Trigger where
  | sen
  | rsen
  | pen
  | rcen
  | acken
deriving DecidableEq, Repr

/-- The bit number of a trigger in P_CTRL (R31). -/
def Trigger.bit : Trigger → Nat
  | .sen => 0
  | .rsen => 1
  | .pen => 2
  | .rcen => 3
  | .acken => 4

/-- P_CTRL without reserved bit 6, which "reads 0; writes ignored" (R31). -/
def ctrlMask : Byte := 0xBF

/-- The bits of P_STAT that exist; bits 7:2 "read 0" (R32). -/
def statMask : Byte := 0x03

/-- P_CTRL.EN (R31). -/
def State.en (s : State) : Bool := s.pCtrl.getLsbD 7

/-- P_CTRL.ACKDT: 0 = ACK, 1 = NACK (R31). -/
def State.ackdt (s : State) : Bool := s.pCtrl.getLsbD 5

/-- A trigger bit of P_CTRL (R31). -/
def State.trigger (s : State) (t : Trigger) : Bool := s.pCtrl.getLsbD t.bit

/-- P_STAT.BUSY (R32). -/
def State.txBusy (s : State) : Bool := s.pStat.getLsbD 0

/-- P_STAT.ACKSTAT: 0 = ACK, 1 = NACK (R32). -/
def State.ackstat (s : State) : Bool := s.pStat.getLsbD 1

/-- `idle(P)`: `(P_CTRL & 0x1F) == 0 and P_STAT.BUSY == 0` (R37). -/
def State.idleP (s : State) : Bool := (s.pCtrl &&& 0x1F == 0) && !s.txBusy

/-- A byte with bit `k` set to `v`. -/
def withBit (x : Byte) (k : Nat) (v : Bool) : Byte :=
  if v then x ||| (1#8 <<< k) else x &&& ~~~(1#8 <<< k)

/-- STATUS (R51). -/
def State.statusWord (s : State) : Word :=
  (0 : BitVec 5) ++ BitVec.ofBool s.vTc ++ BitVec.ofBool s.vRh ++ BitVec.ofBool s.vRawT ++ BitVec.ofBool s.vRawRh ++
    BitVec.ofBool s.vB1 ++ BitVec.ofBool s.vB0 ++ txnCode s.txn ++ BitVec.ofBool s.halt ++ BitVec.ofBool s.busy

/-- SEQ: bits 4:0 = PH, bits 7:5 = MPH (R50). -/
def State.seqWord (s : State) : Word := (0 : Byte) ++ s.mph ++ s.ph

/-- The valid bits cleared when MEAS.RH, MEAS.T or CYCLE is issued; no other issue clears any (R190). -/
def clearAtIssue (i : Instr) (s : State) : State :=
  match i with
  | .measRh => { s with vRawRh := false, vRh := false }
  | .measT => { s with vRawT := false, vTc := false }
  | .cycle => { s with vRawRh := false, vRh := false, vRawT := false, vTc := false }
  | .waitIdle => s
  | .start => s
  | .rstart => s
  | .stop => s
  | .send _ => s
  | .recv _ _ => s
  | .delay _ => s
  | .init _ => s
  | .asmRh => s
  | .asmT => s
  | .decRh => s
  | .decT => s
  | .fmtRh => s
  | .fmtT => s

end Sys2Proof.Machine
end

