-- ==== Sys2Proof/Machine/Ops.lean ====
section
/-! DEFINITION. The shared operations: peripheral register accesses (R72, R77, R78), taking a fault (R212),
issuing a command (R236), the display stream (R52), the free values, and the block's reset (R240). -/

namespace Sys2Proof.Machine

/-! ## The peripheral register space (R70, R72) -/

/-- `MemRead(a, 1)`: the register at offset `a`, no side effect (R72, R78). Reserved bits read 0 (R31, R32). -/
def periphRead (a : BitVec 2) (s : State) : Byte :=
  match a with
  | 0 => s.pCtrl &&& ctrlMask
  | 1 => s.pStat &&& statMask
  | 2 => s.pData
  | _ => s.pDiv

/-- `MemWrite(a, 1, v)` with the side effects of R78. Writes of the reserved bit of P_CTRL are ignored (R31),
and so is a write of P_STAT, which "the driver can only read" (R32, log 16). A write of P_DATA while EN = 0 has
no specified effect (R78): the model stops (log 9). -/
def periphWrite (a : BitVec 2) (v : Byte) (s : State) : Except Fault State :=
  match a with
  | 0 => .ok { s with pCtrl := v &&& ctrlMask }
  | 1 => .ok s
  | 2 =>
    if s.en then .ok { s with pData := v, pStat := withBit s.pStat 0 true }
    else .error .dataWriteWhileDisabled
  | _ => .ok { s with pDiv := v }

/-- `P.F <- v` for the field of P_CTRL at bit `k`: an atomic read-modify-write (R8, R79). -/
def setCtrlBit (k : Nat) (v : Bool) (s : State) : Except Fault State :=
  periphWrite 0 (withBit (periphRead 0 s) k v) s

/-! ## Faults (R212). There is no return from a fault (R216); only `blockReset` clears the record. -/

/-- `raise Fault(code)` (R212): FAULT, FCMD, HALT and BUSY; nothing else changes. -/
def raiseFault (c : FaultCode) (s : State) : State :=
  { s with fault := c, fcmd := s.cur, halt := true, busy := false }

/-! ## Issue (R236) -/

/-- `CUR <- w; PH <- 0; MPH <- 0` (R236). -/
def latch (w : Word) (s : State) : State := { s with cur := w, ph := 0, mph := 0 }

/-- The issue step for a host that writes `w` to CMD while BUSY = 0 (R236): dropped while HALT = 1 (R213), a
fault ILLEGAL on an illegal word (R107, R214), else BUSY = 1 and the valid bits of R190 cleared. -/
def issue (w : Word) (s : State) : State :=
  if s.halt then s
  else
    match decode w with
    | .error _ => raiseFault .illegal (latch w s)
    | .ok i => clearAtIssue i { latch w s with busy := true }

/-! ## The display stream (R52) -/

/-- `emit(t)`: OUT gains the bytes `t` (R8, R52). -/
def emit (t : List Byte) (s : State) : State := { s with out := s.out ++ t }

/-! ## Draws (R8, R231): named by the environment, else a free value (log 6) -/

/-- `draw8()`: the byte the slave answers. -/
def drawnByte (s : State) : Byte :=
  match s.rxIn with
  | x :: _ => x
  | [] => Config.freeByte s.draws

/-- The state after `draw8()`. -/
def afterDrawByte (s : State) : State :=
  match s.rxIn with
  | _ :: xs => { s with rxIn := xs }
  | [] => { s with draws := s.draws + 1 }

/-- `draw1()`: the slave's acknowledge bit. -/
def drawnBit (s : State) : Bool :=
  match s.ackIn with
  | k :: _ => k
  | [] => Config.freeBit s.draws

/-- The state after `draw1()`. -/
def afterDrawBit (s : State) : State :=
  match s.ackIn with
  | _ :: ks => { s with ackIn := ks }
  | [] => { s with draws := s.draws + 1 }

/-! ## Reset (R240, R242) -/

/-- A reset of the block after launch (R240): every piece of block state takes its value of R56. The result
registers, "unspecified (any value)" there, take free values (log 5). No peripheral register is written, and a
pending operation stays pending (R242). -/
def blockReset (s : State) : State :=
  { s with
    b0 := Config.freeByte s.draws, b1 := Config.freeByte (s.draws + 1)
    rawRh := Config.freeRaw s.draws, rawT := Config.freeRaw (s.draws + 1)
    rh := Config.freeWord s.draws, tc := Config.freeWord (s.draws + 1)
    draws := s.draws + 2
    vB0 := false, vB1 := false, vRawRh := false, vRawT := false, vRh := false, vTc := false
    txn := .idle, fault := .none, fcmd := 0, halt := false, cur := 0, busy := false, ph := 0, mph := 0
    out := [], busLog := [], elapsedMs := 0 }

end Sys2Proof.Machine
end

