-- ==== Sys2Proof/Machine/Reading.lean ====
section
/-! DEFINITION. The fixed-point decoder's functions (41_decoder.md R160 to R175): the raw value, the two
conversions and the two display strings, on exact integers (R175). -/

namespace Sys2Proof.Machine

/-- `raw14(b0, b1) := (b0 << 6) | (b1 >> 2)` (R160); no bit is lost, the result has 14 bits. -/
def raw14 (b0 b1 : Byte) : BitVec 14 := (b0.setWidth 14 <<< 6) ||| (b1 >>> 2).setWidth 14

/-- Integer division rounding toward zero, for d > 0 (R8). -/
def truncDiv (n d : Int) : Int := if 0 ≤ n then n / d else -(-n / d)

/-- The integer nearest to n/d, an exact half away from zero, for d > 0 (R8). -/
def roundHalfAway (n d : Int) : Int :=
  if 0 ≤ n then (2 * n + d) / (2 * d) else -((2 * -n + d) / (2 * d))

/-- `rh(r) := trunc_div(125*r - 98304, 16384)` (R164). -/
def rhOf (r : Nat) : Int := truncDiv (125 * r - 98304) 16384

/-- `tc(r) := round_half_away(17572*r - 76759040, 16384)` (R168). -/
def tcOf (r : Nat) : Int := roundHalfAway (17572 * r - 76759040) 16384

/-- The ASCII byte of a digit 0 to 9 (R9). -/
def digit (n : Nat) : Byte := BitVec.ofNat 8 (0x30 + n)

/-- The decimal digits of `n`, by fuel. -/
def decFuel : Nat → Nat → List Byte
  | 0, _ => []
  | f + 1, n => if n < 10 then [digit n] else decFuel f (n / 10) ++ [digit (n % 10)]

/-- `dec(n)`: the decimal spelling with no leading zeros, `"0"` for 0 (R8). -/
def dec (n : Nat) : List Byte := decFuel (n + 1) n

/-- `dec2(n)`: the two-digit spelling of n in [0, 99] (R8). -/
def dec2 (n : Nat) : List Byte := [digit (n / 10), digit (n % 10)]

/-- `"-"` for a negative value, else nothing (R171, R173). -/
def signBytes (v : Int) : List Byte := if v < 0 then [0x2D] else []

/-- `rh_str(v) := (v < 0 ? "-" : "") ++ dec(|v|) ++ "%"` (R171, bytes of R9). -/
def rhStr (v : Int) : List Byte := signBytes v ++ dec v.natAbs ++ [0x25]

/-- `t_str(c) := (c < 0 ? "-" : "") ++ dec(|c| div 100) ++ "." ++ dec2(|c| mod 100) ++ " C"` (R173, R9). -/
def tStr (c : Int) : List Byte :=
  signBytes c ++ dec (c.natAbs / 100) ++ [0x2E] ++ dec2 (c.natAbs % 100) ++ [0x20, 0x43]

/-- The raw register a reading's assembly writes, with its valid bit (R161, R162). -/
def writeRaw (r : Reading) (v : BitVec 14) (s : State) : State :=
  match r with
  | .rh => { s with rawRh := v, vRawRh := true }
  | .t => { s with rawT := v, vRawT := true }

/-- The conversion of a reading: RH or TC as 16-bit two's complement, with its valid bit (R165, R169). -/
def writeDecoded (r : Reading) (s : State) : State :=
  match r with
  | .rh => { s with rh := BitVec.ofInt 16 (rhOf s.rawRh.toNat), vRh := true }
  | .t => { s with tc := BitVec.ofInt 16 (tcOf s.rawT.toNat), vTc := true }

/-- The string a reading's format command emits (R172, R174). -/
def readingStr (r : Reading) (s : State) : List Byte :=
  match r with
  | .rh => rhStr s.rh.toInt
  | .t => tStr s.tc.toInt

/-- The raw register of a reading is valid (R36). -/
def rawValid (r : Reading) (s : State) : Bool :=
  match r with
  | .rh => s.vRawRh
  | .t => s.vRawT

/-- The decoded register of a reading is valid (R36). -/
def decodedValid (r : Reading) (s : State) : Bool :=
  match r with
  | .rh => s.vRh
  | .t => s.vTc

end Sys2Proof.Machine
end

