-- ==== Sys2Proof/Machine/Uops.lean ====
section
/-! DEFINITION. The micro-operations (10_state.md R44 to R46): the transaction table (40_bus_phases.md R131),
the effect of each μop, the μop list of each primitive, the advance of the phase counter, and the driver's step. -/

namespace Sys2Proof.Machine

/-- The commands of the transaction table (R131). -/
inductive BusCmd where
  | start
  | rstart
  | stop
  | send (b : Byte)
  | recv (a : Bool)
  | init
deriving DecidableEq, Repr

/-- A micro-operation (R44). -/
inductive Uop where
  /-- HOLD: `hold until idle(P)`. -/
  | hold
  /-- CK of START, RSTART, STOP, SEND, RECV (R130). -/
  | ckBus (c : BusCmd)
  /-- CK of INIT: the transaction table alone (R144). -/
  | ckInit
  /-- SET X: `P.X <- 1`. -/
  | set (t : Trigger)
  /-- WDATA b: `MemWrite(2, 1, b)`. -/
  | wdata (b : Byte)
  /-- RDATA d: `B[d] <- MemRead(2, 1)` and `V_Bd <- 1`. -/
  | rdata (d : Bool)
  /-- WACKDT v: `P.ACKDT <- v`. -/
  | wackdt (v : Bool)
  /-- WDIV v: `MemWrite(3, 1, v)`. -/
  | wdiv (v : Byte)
  /-- WCTRL v: `MemWrite(0, 1, v)`. -/
  | wctrl (v : Byte)
  /-- DLY n (R145). -/
  | dly (n : BitVec 12)
  /-- CK+ASM (R161, R162). -/
  | asm (r : Reading)
  /-- CK+DEC (R165, R169). -/
  | dec (r : Reading)
  /-- CK+FMT (R172, R174). -/
  | fmt (r : Reading)
deriving DecidableEq, Repr

/-- What a μop comes to. -/
inductive UopResult where
  /-- It completed with this state; the phase counter is still to advance (R46). -/
  | done (s : State)
  /-- It is a HOLD and `idle(P)` is false: the driver has no step (R45). -/
  | holds
  /-- It raised a fault (R212). -/
  | raises (c : FaultCode)
  /-- The model stops. -/
  | stops (f : Fault)

/-- TXN_TABLE (R131): the next TXN, or the fault. -/
def txnTable (c : BusCmd) (t : Txn) : Except FaultCode Txn :=
  match c with
  | .start =>
    match t with
    | .idle => .ok .addr
    | .addr => .error .txnOpen
    | .write => .error .txnOpen
    | .read => .error .txnOpen
    | .readMore => .error .txnOpen
    | .readDone => .error .txnOpen
  | .rstart =>
    match t with
    | .idle => .error .noTxn
    | .addr => .error .sequence
    | .write => .ok .addr
    | .read => .error .sequence
    | .readMore => .error .sequence
    | .readDone => .error .sequence
  | .stop =>
    match t with
    | .idle => .error .noTxn
    | .addr => .error .sequence
    | .write => .ok .idle
    | .read => .error .sequence
    | .readMore => .error .sequence
    | .readDone => .ok .idle
  | .send b =>
    match t with
    | .idle => .error .noTxn
    | .addr => .ok (if directionIsRead b then .read else .write)
    | .write => .ok .write
    | .read => .error .direction
    | .readMore => .error .direction
    | .readDone => .error .direction
  | .recv a =>
    match t with
    | .idle => .error .noTxn
    | .addr => .error .direction
    | .write => .error .direction
    | .read => .ok (if a then .readMore else .readDone)
    | .readMore => .ok (if a then .readMore else .readDone)
    | .readDone => .error .sequence
  | .init =>
    match t with
    | .idle => .ok .idle
    | .addr => .error .txnOpen
    | .write => .error .txnOpen
    | .read => .error .txnOpen
    | .readMore => .error .txnOpen
    | .readDone => .error .txnOpen

/-- The CK of START also clears V_B0 and V_B1 (R143); no other CK touches a valid bit. -/
def ckClears (c : BusCmd) (s : State) : State :=
  match c with
  | .start => { s with vB0 := false, vB1 := false }
  | .rstart => s
  | .stop => s
  | .send _ => s
  | .recv _ => s
  | .init => s

/-- The transaction check of a command (R130, R131): the table's fault, or its next TXN. -/
def txnCheck (c : BusCmd) (s : State) : UopResult :=
  match txnTable c s.txn with
  | .error f => .raises f
  | .ok t => .done (ckClears c { s with txn := t })

/-- `CK_bus(cmd)` (R130): EN first, then the table (R214). -/
def ckBus (c : BusCmd) (s : State) : UopResult :=
  if (periphRead 0 s).getLsbD 7 then txnCheck c s else .raises .notEnabled

/-- The result of a peripheral write (R78). -/
def writeResult : Except Fault State → UopResult
  | .ok s => .done s
  | .error f => .stops f

/-- CK+ASM (R161, R162). -/
def asmUop (r : Reading) (s : State) : UopResult :=
  if s.vB0 && s.vB1 then .done (writeRaw r (raw14 s.b0 s.b1) s) else .raises .unwritten

/-- CK+DEC (R165, R169). -/
def decUop (r : Reading) (s : State) : UopResult :=
  if rawValid r s then .done (writeDecoded r s) else .raises .unwritten

/-- CK+FMT (R172, R174). -/
def fmtUop (r : Reading) (s : State) : UopResult :=
  if decodedValid r s then .done (emit (readingStr r s) s) else .raises .unwritten

/-- The effect of one μop (R44). -/
def doUop (u : Uop) (s : State) : UopResult :=
  match u with
  | .hold => if s.idleP then .done s else .holds
  | .ckBus c => ckBus c s
  | .ckInit => txnCheck .init s
  | .set t => writeResult (setCtrlBit t.bit true s)
  | .wdata b => writeResult (periphWrite 2 b s)
  | .rdata d => .done (writeByteReg d (periphRead 2 s) s)
  | .wackdt v => writeResult (setCtrlBit 5 v s)
  | .wdiv v => writeResult (periphWrite 3 v s)
  | .wctrl v => writeResult (periphWrite 0 v s)
  | .dly n => .done { s with elapsedMs := s.elapsedMs + n.toNat }
  | .asm r => asmUop r s
  | .dec r => decUop r s
  | .fmt r => fmtUop r s

/-- The μop list of a primitive (R44); a compound command has none of its own. -/
def uopsOf (p : Instr) : List Uop :=
  match p with
  | .waitIdle => [.hold]
  | .start => [.ckBus .start, .hold, .set .sen]
  | .rstart => [.ckBus .rstart, .hold, .set .rsen]
  | .stop => [.ckBus .stop, .hold, .set .pen]
  | .send b => [.ckBus (.send b), .hold, .wdata b]
  | .recv a d => [.ckBus (.recv a), .hold, .set .rcen, .hold, .rdata d, .wackdt (ackValue a), .set .acken]
  | .delay n => [.dly n]
  | .init v => [.ckInit, .hold, .wdiv v, .wctrl 0x80]
  | .asmRh => [.asm .rh]
  | .asmT => [.asm .t]
  | .decRh => [.dec .rh]
  | .decT => [.dec .t]
  | .fmtRh => [.fmt .rh]
  | .fmtT => [.fmt .t]
  | .measRh => []
  | .measT => []
  | .cycle => []

/-- The advance after a μop that completed without a fault (R46), in a command of `nPrims` primitives whose
current one has `nUops` μops. -/
def advance (nPrims nUops : Nat) (s : State) : State :=
  if s.mph.toNat + 1 < nUops then { s with mph := s.mph + 1 }
  else if s.ph.toNat + 1 < nPrims then { s with ph := s.ph + 1, mph := 0 }
  else { s with ph := 0, mph := 0, busy := false, cur := 0 }

/-- What a μop's result makes of the state `s` it ran in: the advance (R46), nothing while a HOLD's condition is false
(R45, log 12), the fault record (R212), or the model's stop. -/
def settle (nPrims nUops : Nat) (s : State) (r : UopResult) : Host.Outcome State Fault Refusal :=
  match r with
  | .done s' => .next (advance nPrims nUops s')
  | .holds => .next s
  | .raises c => .next (raiseFault c s)
  | .stops f => .fault f

/-- The driver's step in a command whose primitives are `prims`: the μop that PH and MPH name (R43, R44), and
what its result makes of the state. -/
def driverStep (prims : List Instr) (s : State) : Host.Outcome State Fault Refusal :=
  match prims[s.ph.toNat]? with
  | none => .fault .phaseOutOfRange
  | some p =>
    match (uopsOf p)[s.mph.toNat]? with
    | none => .fault .phaseOutOfRange
    | some u => settle prims.length (uopsOf p).length s (doUop u s)

end Sys2Proof.Machine
end

