-- ==== Sys2Proof/Machine/BusPhases.lean ====
section
/-! DEFINITION. The meanings of the bus-phase primitives (40_bus_phases.md). Each is one step of the command at
the μop that MPH names; its μop list is `uopsOf` (R44). -/

namespace Sys2Proof.Machine

/-- WAIT_IDLE (R132): HOLD. -/
def execWaitIdle (s : State) : Host.Outcome State Fault Refusal := driverStep [.waitIdle] s

/-- START (R133): CK, HOLD, SET SEN. -/
def execStart (s : State) : Host.Outcome State Fault Refusal := driverStep [.start] s

/-- RSTART (R134): CK, HOLD, SET RSEN. -/
def execRstart (s : State) : Host.Outcome State Fault Refusal := driverStep [.rstart] s

/-- STOP (R135): CK, HOLD, SET PEN. -/
def execStop (s : State) : Host.Outcome State Fault Refusal := driverStep [.stop] s

/-- SEND b (R136): CK, HOLD, WDATA b. -/
def execSend (b : Byte) (s : State) : Host.Outcome State Fault Refusal := driverStep [.send b] s

/-- RECV a, d (R139): CK, HOLD, SET RCEN, HOLD, RDATA d, WACKDT (1 - a), SET ACKEN. -/
def execRecv (a d : Bool) (s : State) : Host.Outcome State Fault Refusal := driverStep [.recv a d] s

/-- DELAY n (R145): DLY n. -/
def execDelay (n : BitVec 12) (s : State) : Host.Outcome State Fault Refusal := driverStep [.delay n] s

/-- INIT v (R144): CK, HOLD, WDIV v, WCTRL 0x80. -/
def execInit (v : Byte) (s : State) : Host.Outcome State Fault Refusal := driverStep [.init v] s

end Sys2Proof.Machine
end

