-- ==== Sys2Proof/Machine/DecoderCmds.lean ====
section
/-! DEFINITION. The meanings of the decoder commands (41_decoder.md), each one μop: check and compute. -/

namespace Sys2Proof.Machine

/-- ASM.RH (R161). -/
def execAsmRh (s : State) : Host.Outcome State Fault Refusal := driverStep [.asmRh] s

/-- ASM.T (R162). -/
def execAsmT (s : State) : Host.Outcome State Fault Refusal := driverStep [.asmT] s

/-- DECRH (R165). -/
def execDecRh (s : State) : Host.Outcome State Fault Refusal := driverStep [.decRh] s

/-- DECT (R169). -/
def execDecT (s : State) : Host.Outcome State Fault Refusal := driverStep [.decT] s

/-- FMTRH (R172). -/
def execFmtRh (s : State) : Host.Outcome State Fault Refusal := driverStep [.fmtRh] s

/-- FMTT (R174). -/
def execFmtT (s : State) : Host.Outcome State Fault Refusal := driverStep [.fmtT] s

end Sys2Proof.Machine
end

