-- ==== Sys2Proof/Machine/Sequencer.lean ====
section
/-! DEFINITION. The measurement sequencer (42_sequencer.md): the primitive lists of R194 and the meanings of
MEAS.RH, MEAS.T and CYCLE. The valid bits their issue clears (R190) are `clearAtIssue`. -/

namespace Sys2Proof.Machine

/-- `MEAS_DELAY_MS` (R5). -/
def measDelayMs : BitVec 12 := 200

/-- The command that assembles a reading's raw value (R194, PH 9). -/
def asmInstr : Reading → Instr
  | .rh => .asmRh
  | .t => .asmT

/-- The command that converts a reading's raw value (R194, PH 10). -/
def decInstr : Reading → Instr
  | .rh => .decRh
  | .t => .decT

/-- The primitive list of MEAS s (R194), PH 0 to 10. -/
def measList (c : Config) (r : Reading) : List Instr :=
  [.start, .send (addrW c), .send (cmdByte c r), .rstart, .send (addrR c), .recv true false, .recv false true,
   .stop, .delay measDelayMs, asmInstr r, decInstr r]

/-- The primitive list of CYCLE (R194), PH 0 to 23. -/
def cycleList (c : Config) : List Instr := measList c .rh ++ measList c .t ++ [.fmtRh, .fmtT]

/-- `primitives(CUR)` (R43, R46): a primitive command is its own one-entry list. -/
def primsOf (c : Config) (i : Instr) : List Instr :=
  match i with
  | .measRh => measList c .rh
  | .measT => measList c .t
  | .cycle => cycleList c
  | .waitIdle => [.waitIdle]
  | .start => [.start]
  | .rstart => [.rstart]
  | .stop => [.stop]
  | .send b => [.send b]
  | .recv a d => [.recv a d]
  | .delay n => [.delay n]
  | .init v => [.init v]
  | .asmRh => [.asmRh]
  | .asmT => [.asmT]
  | .decRh => [.decRh]
  | .decT => [.decT]
  | .fmtRh => [.fmtRh]
  | .fmtT => [.fmtT]

/-- MEAS.RH (R191): the MEAS list with s = 0. -/
def execMeasRh (s : State) : Host.Outcome State Fault Refusal := driverStep (measList s.cfg .rh) s

/-- MEAS.T (R192): the MEAS list with s = 1. -/
def execMeasT (s : State) : Host.Outcome State Fault Refusal := driverStep (measList s.cfg .t) s

/-- CYCLE (R193): the CYCLE list. -/
def execCycle (s : State) : Host.Outcome State Fault Refusal := driverStep (cycleList s.cfg) s

end Sys2Proof.Machine
end

