-- ==== Sys2Proof/Machine/Dispatch.lean ====
section
/-! DEFINITION. One arm per command: a driver step of the command `i`, at the μop PH and MPH name. -/

namespace Sys2Proof.Machine

def exec (i : Instr) (s : State) : Host.Outcome State Fault Refusal :=
  match i with
  | .waitIdle => Sys2Proof.Machine.execWaitIdle s
  | .start => Sys2Proof.Machine.execStart s
  | .rstart => Sys2Proof.Machine.execRstart s
  | .stop => Sys2Proof.Machine.execStop s
  | .send b => Sys2Proof.Machine.execSend b s
  | .recv a d => Sys2Proof.Machine.execRecv a d s
  | .delay n => Sys2Proof.Machine.execDelay n s
  | .init v => Sys2Proof.Machine.execInit v s
  | .asmRh => Sys2Proof.Machine.execAsmRh s
  | .asmT => Sys2Proof.Machine.execAsmT s
  | .decRh => Sys2Proof.Machine.execDecRh s
  | .decT => Sys2Proof.Machine.execDecT s
  | .fmtRh => Sys2Proof.Machine.execFmtRh s
  | .fmtT => Sys2Proof.Machine.execFmtT s
  | .measRh => Sys2Proof.Machine.execMeasRh s
  | .measT => Sys2Proof.Machine.execMeasT s
  | .cycle => Sys2Proof.Machine.execCycle s

end Sys2Proof.Machine
end

