-- ==== Sys2Proof/Machine/HostPort.lean ====
section
/-! DEFINITION. The host registers (10_state.md R50, R51, R73, R87) and the host's accesses (60_exceptions.md R236). -/

namespace Sys2Proof.Machine

/-- The content of a host register by its word offset (R50). -/
def hostContent (off : BitVec 4) (s : State) : Word :=
  match off with
  | 0 => s.cur
  | 1 => s.statusWord
  | 2 => (faultCode s.fault).setWidth 16
  | 3 => s.fcmd
  | 4 => s.b0.setWidth 16
  | 5 => s.b1.setWidth 16
  | 6 => s.rawRh.setWidth 16
  | 7 => s.rawT.setWidth 16
  | 8 => s.rh
  | 9 => s.tc
  | 10 => s.seqWord
  | _ => 0

/-- The register is a result register whose valid bit is 0: a read of it returns any value (R50, U1). -/
def hostReadIsFree (off : BitVec 4) (s : State) : Bool :=
  match off with
  | 4 => !s.vB0
  | 5 => !s.vB1
  | 6 => !s.vRawRh
  | 7 => !s.vRawT
  | 8 => !s.vRh
  | 9 => !s.vTc
  | _ => false

/-- A host read: one atomic step that returns the current value (R87) or a free value (log 7), and changes no
state of the block. -/
def hostRead (off : BitVec 4) (s : State) : State :=
  if hostReadIsFree off s then { s with rdata := Config.freeWord s.draws, draws := s.draws + 1 }
  else { s with rdata := hostContent off s }

/-- A host write while it has a step: offset 0 issues, offsets 1 to 15 are ignored (R50, R236). -/
def hostWrite (off : BitVec 4) (v : Word) (s : State) : State :=
  if off = 0 then issue v s else s

/-- The host's consume step: OUT is read and not shortened (R236). -/
def hostConsume (s : State) : State := s

end Sys2Proof.Machine
end

