-- ==== Sys2Proof/Machine/Peripheral.lean ====
section
/-! DEFINITION. The peripheral agent (60_exceptions.md R230 to R235): six completion steps and no other. -/

namespace Sys2Proof.Machine

/-- A step is enabled when its bit is set and P_CTRL.EN = 1 (R230). -/
def periphEnabled (op : PeriphOp) (s : State) : Bool :=
  s.en &&
    match op with
    | .pStart => s.trigger .sen
    | .pRstart => s.trigger .rsen
    | .pStop => s.trigger .pen
    | .pRx => s.trigger .rcen
    | .pAck => s.trigger .acken
    | .pTx => s.txBusy

/-- The peripheral clears a trigger bit (R31, R38). -/
def clearTrigger (t : Trigger) (s : State) : State := { s with pCtrl := withBit s.pCtrl t.bit false }

/-- One BUSLOG entry (R232). -/
def logEvent (e : BusEvent) (s : State) : State := { s with busLog := s.busLog ++ [e] }

/-- P_RX: a drawn byte goes to P_DATA and RCEN clears (R230). -/
def completeRx (s : State) : State :=
  logEvent (.rx (drawnByte s)) (clearTrigger .rcen { afterDrawByte s with pData := drawnByte s })

/-- P_TX: a drawn acknowledge bit goes to ACKSTAT and P_STAT.BUSY clears; the byte logged is the one in
P_DATA (R230). -/
def completeTx (s : State) : State :=
  logEvent (.tx s.pData (drawnBit s))
    { afterDrawBit s with pStat := withBit (withBit s.pStat 1 (drawnBit s)) 0 false }

/-- The effect of an enabled completion step (R230). -/
def periphEffect (op : PeriphOp) (s : State) : State :=
  match op with
  | .pStart => logEvent .start (clearTrigger .sen s)
  | .pRstart => logEvent .rstart (clearTrigger .rsen s)
  | .pStop => logEvent .stop (clearTrigger .pen s)
  | .pRx => completeRx s
  | .pAck => logEvent (.ackout s.ackdt) (clearTrigger .acken s)
  | .pTx => completeTx s

/-- The peripheral's turn: a step that is not enabled changes nothing (R230, R233, log 12). -/
def periphTurn (op : PeriphOp) (s : State) : State :=
  if periphEnabled op s then periphEffect op s else s

/-- The first enabled completion step, if any; in a reachable state at most one is (R48). -/
def enabledOp (s : State) : Option PeriphOp :=
  [PeriphOp.pStart, .pRstart, .pStop, .pRx, .pAck, .pTx].find? fun op => periphEnabled op s

end Sys2Proof.Machine
end

