-- ==== Sys2Proof/Machine/Schedule.lean ====
section
/-! DEFINITION. One agent's turn (00_scope.md R6): the driver's, which reads its command from CUR, the
peripheral's and the host's; and the turn taken when the environment names none. -/

namespace Sys2Proof.Machine

/-- The driver's turn. It has a step while BUSY = 1 and HALT = 0 (R42, R213): one μop of the command in CUR.
A word in CUR that is no command raises ILLEGAL; `issue` never lets one run (log 11). -/
def driverTurn (s : State) : Host.Outcome State Fault Refusal :=
  if s.busy && !s.halt then
    match decode s.cur with
    | .ok i => exec i s
    | .error _ => .next (raiseFault .illegal s)
  else .next s

/-- A host write of CMD while BUSY = 1 "has no step: the host waits" (R236, U16). -/
def hostWaits (t : Turn) (s : State) : Bool :=
  match t with
  | .write off _ => decide (off = 0) && s.busy
  | _ => false

/-- The step of the agent a turn names (R6, R230, R236, R240); a refused access has no meaning (log 13). -/
def takeTurn (t : Turn) (s : State) : Host.Outcome State Fault Refusal :=
  match t with
  | .driver => driverTurn s
  | .periph op => .next (periphTurn op s)
  | .read off => .next (hostRead off s)
  | .write off v => .next (hostWrite off v s)
  | .consume => .next (hostConsume s)
  | .reset => .next (blockReset s)
  | .partialAccess => .refused .partialHostAccess
  | .peripheralAccess => .refused .hostPeripheralAccess
  | .otherMaster => .refused .otherBusMaster

/-- The step when no turn is named, or while the named host write waits: with `PERIPH_FAIR` an enabled
completion step is taken at the first chance, else the driver moves (R234, log 2). -/
def unnamedStep (s : State) : Host.Outcome State Fault Refusal :=
  match enabledOp s with
  | some op => if s.cfg.periphFair then .next (periphTurn op s) else driverTurn s
  | none => driverTurn s

/-- The state in which `w` has just been issued (R236) and the driver has the next turn (log 14). -/
def placeCommand (w : Word) (s : State) : State :=
  let s' := { latch w s with busy := true, halt := false, turns := .driver :: s.turns }
  match decode w with
  | .ok i => clearAtIssue i s'
  | .error _ => s'

/-- A table word of `nbits` bits as a command word: bits above `nbits` are 0 (R101). -/
def tableWord (nbits w : Nat) : Word := BitVec.ofNat 16 (w % 2 ^ nbits)

end Sys2Proof.Machine
end

