-- ==== Sys2Proof/Machine/Step.lean ====
section
/-! DEFINITION. One step: the next turn in `turns`, unless there is none or it is a host write that waits. -/

namespace Sys2Proof.Machine

/-- One atomic step of one agent (00_scope.md R6, 20_memory.md R82; log 1, 2, 12). -/
def step (s : State) : Host.Outcome State Fault Refusal :=
  match s.turns with
  | [] => unnamedStep s
  | t :: ts => if hostWaits t s then unnamedStep s else takeTurn t { s with turns := ts }

/-- `s` with the table word placed as the issued command, so that the next step runs its first μop (log 14). -/
def State.withFetchWord (s : State) (nbits w : Nat) : State := placeCommand (tableWord nbits w) s

end Sys2Proof.Machine
end

