-- ==== Sys2Proof/WellFormed.lean ====
section
/-! DEFINITION. The range checks on an assembler line (30_encoding.md R109: "The assembler rejects an
operand out of range. It does not truncate it"). An `Instr` needs none: its operands have their fields' widths. -/

namespace Sys2Proof

/-- `b in 0..255`, `v in 0..255` (R109). -/
def byteInRange (n : Nat) : Bool := n ≤ 255

/-- `d in {0, 1}` (R109). -/
def byteRegInRange (d : Nat) : Bool := d ≤ 1

/-- `n in 0..4095` (R109). -/
def delayInRange (n : Nat) : Bool := n ≤ 4095

/-- Every operand of the line is in the range R109 gives it. -/
def AsmLine.wellFormed : AsmLine → Bool
  | .waitIdle => true
  | .start => true
  | .rstart => true
  | .stop => true
  | .send b => byteInRange b
  | .recv _ d => byteRegInRange d
  | .delay n => delayInRange n
  | .init v => byteInRange v
  | .asm _ => true
  | .decRh => true
  | .decT => true
  | .fmtRh => true
  | .fmtT => true
  | .meas _ => true
  | .cycle => true
  | .sendW => true
  | .sendR => true
  | .sendCmd _ => true
  | .recvA d => byteRegInRange d
  | .recvN d => byteRegInRange d
  | .decode _ => true

end Sys2Proof
end

