-- ==== Sys2Proof/Machine/Assembler.lean ====
section
/-! DEFINITION. The assembler (30_encoding.md R109, R110): from a line of text to a command word. The machine
does not use it; it is how a program is written down. Its lexical details are log 20. -/

namespace Sys2Proof.Machine

/-- Why a line is rejected. -/
inductive AsmError where
  /-- No form of R109 or R110 has this mnemonic. -/
  | unknownMnemonic
  /-- The operands are not those of the mnemonic's form. -/
  | badOperands
  /-- An operand is out of the range R109 gives it. -/
  | outOfRange
deriving DecidableEq, Repr

/-- The command a line stands for; a pseudo-instruction expands as R110 says. An operand out of range is
rejected, not truncated (R109). -/
def assemble (c : Config) (l : AsmLine) : Option Instr :=
  if l.wellFormed then
    some
      (match l with
      | .waitIdle => .waitIdle
      | .start => .start
      | .rstart => .rstart
      | .stop => .stop
      | .send b => .send (BitVec.ofNat 8 b)
      | .recv ack d => .recv ack (d == 1)
      | .delay n => .delay (BitVec.ofNat 12 n)
      | .init v => .init (BitVec.ofNat 8 v)
      | .asm .rh => .asmRh
      | .asm .t => .asmT
      | .decRh => .decRh
      | .decT => .decT
      | .fmtRh => .fmtRh
      | .fmtT => .fmtT
      | .meas .rh => .measRh
      | .meas .t => .measT
      | .cycle => .cycle
      | .sendW => .send (addrW c)
      | .sendR => .send (addrR c)
      | .sendCmd r => .send (cmdByte c r)
      | .recvA d => .recv true (d == 1)
      | .recvN d => .recv false (d == 1)
      | .decode .rh => .decRh
      | .decode .t => .decT)
  else none

/-! ## The text of a line -/

/-- Space or tab. -/
def isBlank (c : Char) : Bool := c == ' ' || c == '\t'

/-- The text without leading and trailing blanks. -/
def trim (t : List Char) : List Char := ((t.dropWhile isBlank).reverse.dropWhile isBlank).reverse

/-- The pieces between commas. -/
def splitCommas : List Char → List (List Char)
  | [] => [[]]
  | c :: cs =>
    match splitCommas cs with
    | [] => [[]]
    | p :: ps => if c == ',' then [] :: p :: ps else (c :: p) :: ps

/-- The operands of a line, from the text after its mnemonic (R109: "separated by commas"). -/
def operandTexts (t : List Char) : List (List Char) := if trim t = [] then [] else (splitCommas t).map trim

/-- The value of a digit below `base`. -/
def digitValue (base : Nat) (c : Char) : Option Nat :=
  let n := c.toNat
  let v := if 48 ≤ n ∧ n ≤ 57 then n - 48 else if 65 ≤ n ∧ n ≤ 70 then n - 55 else if 97 ≤ n ∧ n ≤ 102 then n - 87 else base
  if v < base then some v else none

/-- The value of a digit string, most significant digit first. -/
def digitsValue (base : Nat) : List Char → Nat → Option Nat
  | [], acc => some acc
  | c :: cs, acc => (digitValue base c).bind fun v => digitsValue base cs (acc * base + v)

/-- A number: "decimal or `0x` hex" (R109). -/
def parseNumber : List Char → Option Nat
  | [] => none
  | '0' :: 'x' :: c :: cs => digitsValue 16 (c :: cs) 0
  | c :: cs => digitsValue 10 (c :: cs) 0

/-- `Bd` (R109). -/
def parseByteReg : List Char → Option Nat
  | 'B' :: c :: cs => digitsValue 10 (c :: cs) 0
  | _ => none

/-- `rh` or `t` (R109). -/
def parseReading (t : List Char) : Option Reading :=
  if t = ['r', 'h'] then some .rh else if t = ['t'] then some .t else none

/-- `ack` or `nack` (R109). -/
def parseAck (t : List Char) : Option Bool :=
  if t = ['a', 'c', 'k'] then some true else if t = ['n', 'a', 'c', 'k'] then some false else none

/-- The shape of a mnemonic's operands. -/
inductive AsmForm where
  | plain (l : AsmLine)
  | number (f : Nat → AsmLine)
  | byteReg (f : Nat → AsmLine)
  | reading (f : Reading → AsmLine)
  | ackReg

/-- The forms of R109 and the pseudo-instructions of R110, by mnemonic. -/
def asmForm : String → Option AsmForm
  | "WAIT_IDLE" => some (.plain .waitIdle)
  | "START" => some (.plain .start)
  | "RSTART" => some (.plain .rstart)
  | "STOP" => some (.plain .stop)
  | "SEND" => some (.number .send)
  | "RECV" => some .ackReg
  | "DELAY" => some (.number .delay)
  | "INIT" => some (.number .init)
  | "ASM" => some (.reading .asm)
  | "DECRH" => some (.plain .decRh)
  | "DECT" => some (.plain .decT)
  | "FMTRH" => some (.plain .fmtRh)
  | "FMTT" => some (.plain .fmtT)
  | "MEAS" => some (.reading .meas)
  | "CYCLE" => some (.plain .cycle)
  | "SENDW" => some (.plain .sendW)
  | "SENDR" => some (.plain .sendR)
  | "SENDCMD" => some (.reading .sendCmd)
  | "RECVA" => some (.byteReg .recvA)
  | "RECVN" => some (.byteReg .recvN)
  | "DECODE" => some (.reading .decode)
  | _ => none

/-- A line of a form with these operand texts. -/
def AsmForm.line (f : AsmForm) (ops : List (List Char)) : Option AsmLine :=
  match f, ops with
  | .plain l, [] => some l
  | .number g, [x] => (parseNumber x).map g
  | .byteReg g, [x] => (parseByteReg x).map g
  | .reading g, [x] => (parseReading x).map g
  | .ackReg, [x, y] => (parseAck x).bind fun a => (parseByteReg y).map (AsmLine.recv a)
  | _, _ => none

/-- One line of text (R109): the mnemonic first, then operands, `;` starting a comment; a line without a
mnemonic holds no command. -/
def parseLine (t : List Char) : Except AsmError (Option AsmLine) :=
  let body := trim (t.takeWhile (· != ';'))
  let mnemonic := body.takeWhile (fun c => !isBlank c)
  if body = [] then .ok none
  else
    match asmForm (String.ofList mnemonic) with
    | none => .error .unknownMnemonic
    | some f =>
      match f.line (operandTexts (body.drop mnemonic.length)) with
      | none => .error .badOperands
      | some l => .ok (some l)

/-- The command word of a line of text, `none` for a line that holds no command. -/
def assembleLine (c : Config) (t : List Char) : Except AsmError (Option Word) :=
  match parseLine t with
  | .error e => .error e
  | .ok none => .ok none
  | .ok (some l) =>
    match assemble c l with
    | none => .error .outOfRange
    | some i => .ok (some (encode i))

end Sys2Proof.Machine
end

