-- ==== Sys2Proof/Safety.lean ====
section
/-! DEFINITION. What claims are stated in terms of: the end of a run (60_exceptions.md R238), the premises a host
owes (R237, R241), and the invariants of the machine. All are Bools, so a concrete state is checked by decide. -/

namespace Sys2Proof.Machine

/-! ## Premises and the end of a run -/

/-- The launch premise on the peripheral (R241): P_CTRL = 0x00 and P_STAT = 0x00. -/
def State.launchPremise (s : State) : Bool := s.pCtrl == 0 && s.pStat == 0

/-- The turn is one the model gives a meaning: no other master, no refused host access (R235, R236, R237). -/
def Turn.permitted : Turn → Bool
  | .partialAccess => false
  | .peripheralAccess => false
  | .otherMaster => false
  | .driver => true
  | .periph _ => true
  | .read _ => true
  | .write _ _ => true
  | .consume => true
  | .reset => true

/-- The turn resets the block. -/
def Turn.isReset : Turn → Bool
  | .reset => true
  | .driver => false
  | .periph _ => false
  | .read _ => false
  | .write _ _ => false
  | .consume => false
  | .partialAccess => false
  | .peripheralAccess => false
  | .otherMaster => false

/-- The turn issues a command. -/
def Turn.isIssue : Turn → Bool
  | .write off _ => decide (off = 0)
  | _ => false

/-- A state is final: BUSY = 0, HALT = 0, TXN = IDLE, `idle(P)`, and the host has no further command (R238). -/
def State.final (s : State) : Bool :=
  !s.busy && !s.halt && s.txn == .idle && s.idleP && s.turns.all (fun t => !t.isIssue)

/-! ## The end of a command, as R46 and R212 write it; claims state their results with these -/

/-- Command complete: `PH <- 0; MPH <- 0; BUSY <- 0; CUR <- 0` (R46). -/
def State.completed (s : State) : State := { s with ph := 0, mph := 0, busy := false, cur := 0 }

/-- Fault recorded: `FAULT <- code; FCMD <- CUR; HALT <- 1; BUSY <- 0`, nothing else changed (R212). -/
def State.faulted (s : State) (c : FaultCode) : State :=
  { s with fault := c, fcmd := s.cur, halt := true, busy := false }

/-- The same state but for P_STAT.ACKSTAT, the slave's last answer (R32, R138). -/
def State.withAckstat (s : State) (k : Bool) : State := { s with pStat := withBit s.pStat 1 k }

/-! ## What a completion step logs -/

/-- The BUSLOG entry of a completion step, by the table of R230: RX carries the byte drawn, TX the byte in P_DATA and the
acknowledge bit drawn, ACKOUT the value in ACKDT. -/
def busEntry (op : PeriphOp) (s : State) : BusEvent :=
  match op with
  | .pStart => .start
  | .pRstart => .rstart
  | .pStop => .stop
  | .pRx => .rx (drawnByte s)
  | .pAck => .ackout s.ackdt
  | .pTx => .tx s.pData (drawnBit s)

/-! ## Where the driver stands -/

/-- The command being executed: CUR decoded, while BUSY = 1 and HALT = 0 (R42). -/
def State.running (s : State) : Option Instr :=
  if s.busy && !s.halt then
    match decode s.cur with
    | .ok i => some i
    | .error _ => none
  else none

/-- The primitive PH names in the running command (R43). -/
def State.curPrim (s : State) : Option Instr := s.running.bind fun i => (primsOf s.cfg i)[s.ph.toNat]?

/-- The μop PH and MPH name in the running command (R43, R44). -/
def State.curUop (s : State) : Option Uop := s.curPrim.bind fun p => (uopsOf p)[s.mph.toNat]?

/-- The μops that write the peripheral, or read its data: each follows a HOLD of its primitive (R44, R48). -/
def Uop.needsIdle : Uop → Bool
  | .hold => false
  | .ckBus _ => false
  | .ckInit => false
  | .set _ => true
  | .wdata _ => true
  | .rdata _ => true
  | .wackdt _ => true
  | .wdiv _ => true
  | .wctrl _ => true
  | .dly _ => false
  | .asm _ => false
  | .dec _ => false
  | .fmt _ => false

/-- The primitives whose CK checks EN (R130). -/
def checksEnable : Instr → Bool
  | .start => true
  | .rstart => true
  | .stop => true
  | .send _ => true
  | .recv _ _ => true
  | .waitIdle => false
  | .delay _ => false
  | .init _ => false
  | .asmRh => false
  | .asmT => false
  | .decRh => false
  | .decT => false
  | .fmtRh => false
  | .fmtT => false
  | .measRh => false
  | .measT => false
  | .cycle => false

/-! ## Invariants -/

/-- How many peripheral operations are pending: of SEN, RSEN, PEN, RCEN, ACKEN and BUSY, those that are 1 (R48). -/
def State.pendingCount (s : State) : Nat :=
  (s.trigger .sen).toNat + (s.trigger .rsen).toNat + (s.trigger .pen).toNat + (s.trigger .rcen).toNat +
    (s.trigger .acken).toNat + s.txBusy.toNat

/-- At most one operation is pending (R48), and the peripheral is idle at a μop that follows a HOLD. -/
def State.pendingOk (s : State) : Bool :=
  decide (s.pendingCount ≤ 1) &&
    match s.curUop with
    | some u => !u.needsIdle || s.idleP
    | none => true

/-- The fault record is consistent (R41, R42): HALT is 1 exactly when FAULT is not NONE, FCMD is 0 when FAULT is
NONE, and a halted block is not busy. -/
def State.faultRecordOk (s : State) : Bool :=
  (s.halt == (s.fault != .none)) && (s.fault != .none || s.fcmd == 0) && !(s.halt && s.busy)

/-- The reserved bits of P_CTRL and P_STAT are 0 (R31, R32). -/
def State.reservedOk (s : State) : Bool := (s.pCtrl &&& ~~~ctrlMask == 0) && (s.pStat &&& ~~~statMask == 0)

/-- A valid RH is in [-6, 118] and a valid TC in [-4685, 12886] (R35). -/
def State.rangesOk (s : State) : Bool :=
  (!s.vRh || (decide (-6 ≤ s.rh.toInt) && decide (s.rh.toInt ≤ 118))) &&
    (!s.vTc || (decide (-4685 ≤ s.tc.toInt) && decide (s.tc.toInt ≤ 12886)))

/-- While BUSY = 1 the block is not halted, CUR is a command and PH and MPH name one of its μops (R43, R47); past
the CK of a primitive that checks it, EN is 1 (R130). -/
def State.positionOk (s : State) : Bool :=
  !s.busy ||
    (!s.halt && s.curUop.isSome &&
      match s.curPrim with
      | some p => !checksEnable p || s.mph == 0 || s.en
      | none => false)

/-- While BUSY = 0 and no fault is recorded, CUR, PH and MPH are 0 (R42, R46). -/
def State.restOk (s : State) : Bool := s.busy || s.halt || (s.cur == 0 && s.ph == 0 && s.mph == 0)

/-! ## The framing on the bus (R142, R147, R148) -/

/-- Where the bus stands in the framing "Start, Address/Command bytes, [Repeated-Start, Address], Receive bytes
with ACK/NACK, Stop" (R10, R40), as a reader of BUSLOG sees it. -/
inductive Line where
  /-- Before a START, or after a STOP. -/
  | free
  /-- After a START or repeated start: the address byte is next. -/
  | opened
  /-- Addressed for write. -/
  | writing
  /-- Addressed for read, nothing received. -/
  | reading
  /-- A byte was received: its acknowledge is next. -/
  | ackDue
  /-- The last byte was acknowledged: another is owed. -/
  | readingMore
  /-- The last byte was not acknowledged: STOP is next. -/
  | nacked
deriving DecidableEq, Repr

/-- The framing's next place, `none` where the event breaks the framing. -/
def lineNext (l : Line) (e : BusEvent) : Option Line :=
  match l, e with
  | .free, .start => some .opened
  | .opened, .tx b _ => some (if directionIsRead b then .reading else .writing)
  | .writing, .tx _ _ => some .writing
  | .writing, .rstart => some .opened
  | .writing, .stop => some .free
  | .reading, .rx _ => some .ackDue
  | .readingMore, .rx _ => some .ackDue
  | .ackDue, .ackout k => some (if k then .nacked else .readingMore)
  | .nacked, .stop => some .free
  | _, _ => none

/-- The place after a sequence of events. -/
def lineAfter (l : Line) : List BusEvent → Option Line
  | [] => some l
  | e :: es => (lineNext l e).bind fun l' => lineAfter l' es

/-- The place TXN stands for (R40). -/
def lineOf : Txn → Line
  | .idle => .free
  | .addr => .opened
  | .write => .writing
  | .read => .reading
  | .readMore => .readingMore
  | .readDone => .nacked

/-- The event of one operation, if it is pending, before others. -/
def pendingEvent (isPending : Bool) (e : BusEvent) (es : List BusEvent) : List BusEvent :=
  if isPending then e :: es else es

/-- The events of the pending operations, in an order that is of no account while at most one is pending. A
received byte and a slave acknowledge do not matter to the framing. -/
def State.pendingEvents (s : State) : List BusEvent :=
  pendingEvent (s.trigger .sen) .start <| pendingEvent (s.trigger .rsen) .rstart <|
    pendingEvent (s.trigger .pen) .stop <| pendingEvent (s.trigger .rcen) (.rx 0) <|
      pendingEvent (s.trigger .acken) (.ackout s.ackdt) <| pendingEvent s.txBusy (.tx s.pData false) []

/-- The event a trigger starts, the acknowledge value being `k`. -/
def Trigger.event (k : Bool) : Trigger → BusEvent
  | .sen => .start
  | .rsen => .rstart
  | .pen => .stop
  | .rcen => .rx 0
  | .acken => .ackout k

/-- The events the rest of a primitive's μops will start, the acknowledge value being `k` so far. -/
def eventsOf (k : Bool) : List Uop → List BusEvent
  | [] => []
  | .set t :: us => t.event k :: eventsOf k us
  | .wdata b :: us => .tx b false :: eventsOf k us
  | .wackdt v :: us => eventsOf v us
  | _ :: us => eventsOf k us

/-- The μops the running primitive still owes after its CK; none before it, when TXN has not moved. -/
def State.owedUops (s : State) : List Uop :=
  match s.curPrim with
  | some p => if s.mph = 0 then [] else (uopsOf p).drop s.mph.toNat
  | none => []

/-- BUSLOG, then the pending operation, then what the running primitive still owes, is a legal framing that ends
where TXN says. No reset of the block is to come (after one, "claims about BUSLOG are unreliable", R242). -/
def State.framingOk (s : State) : Bool :=
  s.pendingOk && s.turns.all (fun t => !t.isReset) &&
    lineAfter .free (s.busLog ++ s.pendingEvents ++ eventsOf s.ackdt s.owedUops) == some (lineOf s.txn)

/-! ## Compound commands (R195) -/

/-- A compound command (R11). -/
def isCompound : Instr → Bool
  | .measRh => true
  | .measT => true
  | .cycle => true
  | _ => false

/-- TXN before the primitive at PH k of a MEAS list (R195); IDLE from PH 8 on. -/
def measTxn : Nat → Txn
  | 1 => .addr
  | 2 => .write
  | 3 => .write
  | 4 => .addr
  | 5 => .read
  | 6 => .readMore
  | 7 => .readDone
  | _ => .idle

/-- What R195 says holds at PH `ph`, MPH `mph` of a compound command past its first CK: EN = 1, TXN is that of the
phase, and the registers the later phases read are valid: B0 and B1 from their RDATA (MPH 4 of PH 5 and PH 6) on. -/
def State.phaseOk (i : Instr) (s : State) : Bool :=
  let k := s.ph.toNat
  let j := if k < 22 then k % 11 else 10
  s.en && (s.txn == (if k < 22 then measTxn (if s.mph = 0 then j else j + 1) else .idle)) &&
    (j < 5 || (j == 5 && s.mph.toNat < 5) || s.vB0) && (j < 6 || (j == 6 && s.mph.toNat < 5) || s.vB1) &&
    (j < 10 || 22 ≤ k || (if i = .measT || 11 ≤ k then s.vRawT else s.vRawRh)) &&
    (k < 11 || s.vRh) && (k < 22 || s.vTc)

/-- A running compound command is at its first CK, or R195's table holds. -/
def State.compoundOk (s : State) : Bool :=
  match s.running with
  | some i => !isCompound i || (s.ph == 0 && s.mph == 0) || s.phaseOk i
  | none => true

end Sys2Proof.Machine
end

