-- ==== Sys2Proof/Certificates/Slice0/Obligations.lean ====
section
/-! DEFINITION. The statements for the provers. `s.completed` and `s.faulted c` (Safety.lean) are R46's end of a
command and R212's fault entry written out; a record update says that every other field is unchanged. -/

open Sys2Proof Sys2Proof.Machine

/-! ## Encoding -/

/-- Words written out from the patterns of R106 decode to the commands they stand for. -/
def Obligations.WordsOfTheOpcodeMapDecode : Prop :=
  decode 0x1000 = .ok .waitIdle ∧ decode 0x2000 = .ok .start ∧ decode 0x50E5 = .ok (.send 0xE5) ∧
  decode 0x6100 = .ok (.recv true false) ∧ decode 0x6200 = .ok (.recv false true) ∧
  decode 0x70C8 = .ok (.delay 200) ∧ decode 0x8027 = .ok (.init 0x27) ∧ decode 0x9001 = .ok .asmT ∧
  decode 0xB000 = .ok .decT ∧ decode 0xC000 = .ok .fmtRh ∧ decode 0xE001 = .ok .measT ∧ decode 0xF000 = .ok .cycle ∧
  decode 0x0000 = .error .opcodeZero ∧ decode 0x6400 = .error .reservedBitSet

/-- Decode and encode agree on every command, with every operand at every value (R106, R108, R109). -/
def Obligations.DecodeOfEncodeIsTheCommand : Prop := ∀ i : Instr, decode (encode i) = .ok i

/-- A word that decodes to `i` is the word of `i`: each legal word has one meaning, and no bit of it is dropped
(R106, R108). -/
def Obligations.EncodeOfDecodeIsTheWord : Prop := ∀ (w : Word) (i : Instr), decode w = .ok i → encode i = w

/-- A word is illegal exactly when it matches no row of R106; its kind is opcode 0 or a reserved bit (R107). -/
def Obligations.IllegalWordsMatchNoRow : Prop :=
  ∀ w : Word,
    ((∃ e, decode w = .error e) ↔ ∀ r ∈ opRows, w &&& r.mask ≠ r.bits) ∧
    (decode w = .error .opcodeZero ↔ w >>> 12 = 0) ∧
    (decode w = .error .reservedBitSet ↔ w >>> 12 ≠ 0 ∧ ∀ r ∈ opRows, w &&& r.mask ≠ r.bits)

/-- The assembler rejects a line exactly when an operand is out of range, and gives every other line the word of its form:
each form of R109, each pseudo-instruction of R110, the address byte of R137. -/
def Obligations.AssemblerPlacesOrRejectsOperands : Prop :=
  ∀ c : Config,
    let word (l : AsmLine) : Option Nat := (assemble c l).map fun i => (encode i).toNat
    (∀ l : AsmLine, assemble c l = none ↔ l.wellFormed = false) ∧
    (∀ b, word (.send b) = if b ≤ 255 then some (0x5000 + b) else none) ∧
    (∀ v, word (.init v) = if v ≤ 255 then some (0x8000 + v) else none) ∧
    (∀ n, word (.delay n) = if n ≤ 4095 then some (0x7000 + n) else none) ∧
    (∀ a d, word (.recv a d) = if d ≤ 1 then some (0x6000 + 512 * d + 256 * a.toNat) else none) ∧
    (word .waitIdle = some 0x1000 ∧ word .start = some 0x2000 ∧ word .rstart = some 0x3000 ∧ word .stop = some 0x4000) ∧
    (word (.asm .rh) = some 0x9000 ∧ word (.asm .t) = some 0x9001 ∧ word .decRh = some 0xA000 ∧ word .decT = some 0xB000) ∧
    (word .fmtRh = some 0xC000 ∧ word .fmtT = some 0xD000 ∧ word (.meas .rh) = some 0xE000 ∧
      word (.meas .t) = some 0xE001 ∧ word .cycle = some 0xF000) ∧
    (word .sendW = some (0x5000 + 2 * c.sensorAddr7.toNat) ∧ word .sendR = some (0x5000 + 2 * c.sensorAddr7.toNat + 1)) ∧
    (word (.sendCmd .rh) = some (0x5000 + c.cmdRh.toNat) ∧ word (.sendCmd .t) = some (0x5000 + c.cmdT.toNat)) ∧
    (∀ d, word (.recvA d) = if d ≤ 1 then some (0x6100 + 512 * d) else none) ∧
    (∀ d, word (.recvN d) = if d ≤ 1 then some (0x6000 + 512 * d) else none) ∧
    (word (.decode .rh) = some 0xA000 ∧ word (.decode .t) = some 0xB000)

/-! ## The step, the issue and the host -/

/-- A driver's turn runs the command in CUR: the step is `exec` of the decoded command at that state, the turn
consumed (R42, R44; the turn is the model's, log 1); and so is the first step after `withFetchWord` placed its word (log
14). -/
def Obligations.DriverTurnRunsTheLatchedCommand : Prop :=
  ∀ (s : State) (i : Instr),
    (∀ ts, s.turns = .driver :: ts → s.busy = true → s.halt = false → decode s.cur = .ok i →
      step s = exec i { s with turns := ts }) ∧
    step (s.withFetchWord 16 (encode i).toNat) =
      exec i { clearAtIssue i { s with cur := encode i, ph := 0, mph := 0, busy := true, halt := false } with turns := s.turns }

/-- The issue of a word (R236, R190): dropped while HALT = 1, ILLEGAL on an illegal word, else latched with BUSY = 1
and the valid bits of R190 cleared, those and no other. -/
def Obligations.IssueLatchesFaultsOrDrops : Prop :=
  ∀ (s : State) (w : Word) (ts : List Turn), s.turns = .write 0 w :: ts → s.busy = false →
    let u : State := { s with turns := ts, cur := w, ph := 0, mph := 0 }
    (s.halt = true → step s = .next { s with turns := ts }) ∧
    (s.halt = false → (∀ r ∈ opRows, w &&& r.mask ≠ r.bits) → step s = .next (u.faulted .illegal)) ∧
    (s.halt = false → w = 0xE000 → step s = .next { u with busy := true, vRawRh := false, vRh := false }) ∧
    (s.halt = false → w = 0xE001 → step s = .next { u with busy := true, vRawT := false, vTc := false }) ∧
    (s.halt = false → w = 0xF000 →
      step s = .next { u with busy := true, vRawRh := false, vRh := false, vRawT := false, vTc := false }) ∧
    (∀ i, s.halt = false → decode w = .ok i → isCompound i = false → step s = .next { u with busy := true })

/-- A host write of CMD while BUSY = 1 has no step (R236, R253): the step is the one another agent takes where nothing is
named, which neither reads nor writes the waiting write (that it waits in `turns`, and who moves meanwhile, are the
model's choices, log 2, 12). -/
def Obligations.CommandWriteWaitsWhileBusy : Prop :=
  ∀ (s : State) (w : Word) (ts : List Turn), s.turns = .write 0 w :: ts → s.busy = true →
    step s = unnamedStep s ∧
    (∀ u, step { s with turns := [] } = .next u → step s = .next { u with turns := .write 0 w :: ts }) ∧
    (∀ f, step { s with turns := [] } = .fault f → step s = .fault f) ∧
    (∀ r, step s ≠ .refused r)

/-- While HALT = 1 a word issued is dropped and no μop runs, whether the driver's turn is named or no turn is, while the
peripheral still completes (R213). -/
def Obligations.HaltedBlockDropsCommands : Prop :=
  ∀ s : State, s.halt = true →
    (∀ w ts, s.turns = .write 0 w :: ts → s.busy = false → step s = .next { s with turns := ts }) ∧
    (∀ ts, s.turns = .driver :: ts → step s = .next { s with turns := ts }) ∧
    ((s.turns = [] ∨ ∃ w ts, s.turns = .write 0 w :: ts ∧ s.busy = true) →
      step s = .next s ∨ ∃ op, periphEnabled op s = true ∧ step s = .next (periphEffect op s)) ∧
    (∀ op ts, s.turns = .periph op :: ts → periphEnabled op s = true →
      ∃ u : State, step s = .next u ∧ u.busLog = s.busLog ++ [busEntry op s] ∧ u.txn = s.txn ∧ u.halt = true ∧
        u.fault = s.fault ∧ u.fcmd = s.fcmd ∧ u.cur = s.cur)

/-- There is no return from a fault (R216): a reset clears HALT, FAULT and FCMD, every other step keeps all three, and a
halted state is not final. -/
def Obligations.OnlyResetClearsAFault : Prop :=
  ∀ s : State, s.halt = true →
    s.final = false ∧
    (∀ t, s.turns.head? ≠ some .reset → step s = .next t → t.halt = true ∧ t.fault = s.fault ∧ t.fcmd = s.fcmd) ∧
    (s.turns.head? = some .reset → ∃ t, step s = .next t ∧ t.halt = false ∧ t.fault = .none ∧ t.fcmd = 0)

/-- The fault record stays consistent: HALT = 1 exactly when FAULT ≠ NONE, FCMD = 0 when FAULT is NONE, and a halted
block is not busy (R41, R42, R212). -/
def Obligations.FaultRecordStaysConsistent : Prop :=
  ∀ s t : State, s.faultRecordOk = true → step s = .next t → t.faultRecordOk = true

/-- A host read returns the register of R50 and changes nothing of the block; of a result register whose valid bit
is 0 it returns some value (log 7); offsets 11 to 15 read 0. -/
def Obligations.HostReadReturnsTheRegister : Prop :=
  ∀ (s : State) (off : BitVec 4) (ts : List Turn), s.turns = .read off :: ts →
    let u : State := { s with turns := ts }
    (off = 0 → step s = .next { u with rdata := s.cur }) ∧
    (off = 1 → step s = .next { u with rdata := s.statusWord }) ∧
    (off = 2 → step s = .next { u with rdata := (faultCode s.fault).setWidth 16 }) ∧
    (off = 3 → step s = .next { u with rdata := s.fcmd }) ∧
    (off = 4 → s.vB0 = true → step s = .next { u with rdata := s.b0.setWidth 16 }) ∧
    (off = 5 → s.vB1 = true → step s = .next { u with rdata := s.b1.setWidth 16 }) ∧
    (off = 6 → s.vRawRh = true → step s = .next { u with rdata := s.rawRh.setWidth 16 }) ∧
    (off = 7 → s.vRawT = true → step s = .next { u with rdata := s.rawT.setWidth 16 }) ∧
    (off = 8 → s.vRh = true → step s = .next { u with rdata := s.rh }) ∧
    (off = 9 → s.vTc = true → step s = .next { u with rdata := s.tc }) ∧
    (off = 10 → step s = .next { u with rdata := s.seqWord }) ∧
    (11 ≤ off.toNat → step s = .next { u with rdata := 0 }) ∧
    (∃ v d, step s = .next { u with rdata := v, draws := d })

/-- A host write of offsets 1 to 15 is ignored, and consuming OUT changes nothing (R50, R236). -/
def Obligations.OtherHostWritesAndConsumeChangeNothing : Prop :=
  ∀ (s : State) (off : BitVec 4) (v : Word) (ts : List Turn),
    (s.turns = .write off v :: ts → off ≠ 0 → step s = .next { s with turns := ts }) ∧
    (s.turns = .consume :: ts → step s = .next { s with turns := ts })

/-- The fields of STATUS (R51) and SEQ (R50), by their places, and the codes of TXN (R40) and FAULT (R211) they show. -/
def Obligations.StatusAndSeqFieldsStandInPlace : Prop :=
  (∀ s : State,
    s.statusWord.toNat = s.busy.toNat + 2 * s.halt.toNat + 4 * (txnCode s.txn).toNat + 32 * s.vB0.toNat +
      64 * s.vB1.toNat + 128 * s.vRawRh.toNat + 256 * s.vRawT.toNat + 512 * s.vRh.toNat + 1024 * s.vTc.toNat ∧
    s.seqWord.toNat = s.ph.toNat + 32 * s.mph.toNat) ∧
  [Txn.idle, .addr, .write, .read, .readMore, .readDone].map (fun x => (txnCode x).toNat) = [0, 1, 2, 3, 4, 5] ∧
  [FaultCode.none, .illegal, .notEnabled, .noTxn, .txnOpen, .sequence, .direction, .unwritten].map
    (fun c => (faultCode c).toNat) = [0, 1, 2, 3, 4, 5, 6, 7]

/-- A reset sets every piece of block state to its value of R56, the result registers to some value (log 5), and leaves
the peripheral as it is (R240, R242). -/
def Obligations.BlockResetLeavesThePeripheral : Prop :=
  ∀ (s : State) (ts : List Turn), s.turns = .reset :: ts →
    ∃ x0 x1 r0 r1 w0 w1 d,
      step s = .next { s with
        turns := ts, b0 := x0, b1 := x1, rawRh := r0, rawT := r1, rh := w0, tc := w1, draws := d
        vB0 := false, vB1 := false, vRawRh := false, vRawT := false, vRh := false, vTc := false
        txn := .idle, fault := .none, fcmd := 0, halt := false, cur := 0, busy := false, ph := 0, mph := 0
        out := [], busLog := [], elapsedMs := 0 }

/-- Host accesses the spec refuses, and another bus master, have no meaning (R77, R235, R236). -/
def Obligations.RefusedAccessesHaveNoStep : Prop :=
  ∀ (s : State) (ts : List Turn),
    (s.turns = .partialAccess :: ts → step s = .refused .partialHostAccess) ∧
    (s.turns = .peripheralAccess :: ts → step s = .refused .hostPeripheralAccess) ∧
    (s.turns = .otherMaster :: ts → step s = .refused .otherBusMaster)

/-! ## The bus-phase primitives, μop by μop (R44). PH is 0 in a primitive command (R43). -/

/-- WAIT_IDLE (R132, R45): it completes when `idle(P)` holds, with EN = 0 too, and stays as it is while not. -/
def Obligations.WaitIdleHoldsThenCompletes : Prop :=
  ∀ s : State, s.ph = 0 → s.mph = 0 →
    (s.idleP = true → exec .waitIdle s = .next s.completed) ∧ (s.idleP = false → exec .waitIdle s = .next s)

/-- START (R133, R143): CK opens the transaction and clears V_B0 and V_B1, HOLD waits, SET SEN completes it. -/
def Obligations.StartRunsToItsStartCondition : Prop :=
  ∀ s : State, s.ph = 0 →
    (s.mph = 0 → s.en = true → s.txn = .idle →
      exec .start s = .next { s with txn := .addr, vB0 := false, vB1 := false, mph := 1 }) ∧
    (s.mph = 1 → s.idleP = true → exec .start s = .next { s with mph := 2 }) ∧
    (s.mph = 1 → s.idleP = false → exec .start s = .next s) ∧
    (s.mph = 2 → exec .start s = .next { s with pCtrl := (s.pCtrl ||| 0x01) &&& 0xBF }.completed)

/-- RSTART (R134): CK from WRITE to ADDR with no valid bit touched, HOLD, SET RSEN. -/
def Obligations.RepeatedStartKeepsTheBus : Prop :=
  ∀ s : State, s.ph = 0 →
    (s.mph = 0 → s.en = true → s.txn = .write → exec .rstart s = .next { s with txn := .addr, mph := 1 }) ∧
    (s.mph = 1 → s.idleP = true → exec .rstart s = .next { s with mph := 2 }) ∧
    (s.mph = 1 → s.idleP = false → exec .rstart s = .next s) ∧
    (s.mph = 2 → exec .rstart s = .next { s with pCtrl := (s.pCtrl ||| 0x02) &&& 0xBF }.completed)

/-- STOP (R135): CK from WRITE or READ_DONE to IDLE, HOLD, SET PEN. -/
def Obligations.StopReleasesTheBus : Prop :=
  ∀ s : State, s.ph = 0 →
    (s.mph = 0 → s.en = true → s.txn = .write ∨ s.txn = .readDone →
      exec .stop s = .next { s with txn := .idle, mph := 1 }) ∧
    (s.mph = 1 → s.idleP = true → exec .stop s = .next { s with mph := 2 }) ∧
    (s.mph = 1 → s.idleP = false → exec .stop s = .next s) ∧
    (s.mph = 2 → exec .stop s = .next { s with pCtrl := (s.pCtrl ||| 0x04) &&& 0xBF }.completed)

/-- SEND b (R136, R137): in ADDR bit 0 picks READ or WRITE, in WRITE every byte is data; then HOLD; then P_DATA is `b`
and P_STAT.BUSY is 1. With EN = 0 the data write has no specified effect and the model stops (log 9, the model's
choice). -/
def Obligations.SendTransmitsItsByte : Prop :=
  ∀ (b : Byte) (s : State), s.ph = 0 →
    (s.mph = 0 → s.en = true → s.txn = .addr → b.getLsbD 0 = false →
      exec (.send b) s = .next { s with txn := .write, mph := 1 }) ∧
    (s.mph = 0 → s.en = true → s.txn = .addr → b.getLsbD 0 = true →
      exec (.send b) s = .next { s with txn := .read, mph := 1 }) ∧
    (s.mph = 0 → s.en = true → s.txn = .write → exec (.send b) s = .next { s with mph := 1 }) ∧
    (s.mph = 1 → s.idleP = true → exec (.send b) s = .next { s with mph := 2 }) ∧
    (s.mph = 1 → s.idleP = false → exec (.send b) s = .next s) ∧
    (s.mph = 2 → s.en = true →
      exec (.send b) s = .next { s with pData := b, pStat := s.pStat ||| 0x01 }.completed) ∧
    (s.mph = 2 → s.en = false → exec (.send b) s = .fault .dataWriteWhileDisabled)

/-- RECV a, d (R139, R140): CK, HOLD, SET RCEN, HOLD, B[d] takes P_DATA, ACKDT is 0 exactly when `a` is 1 and is
written before ACKEN is set. -/
def Obligations.ReceiveReadsThenAcknowledges : Prop :=
  ∀ (a d : Bool) (s : State), s.ph = 0 →
    (s.mph = 0 → s.en = true → s.txn = .read ∨ s.txn = .readMore →
      exec (.recv a d) s = .next { s with txn := if a then .readMore else .readDone, mph := 1 }) ∧
    (s.mph = 1 → s.idleP = true → exec (.recv a d) s = .next { s with mph := 2 }) ∧
    (s.mph = 2 → exec (.recv a d) s = .next { s with pCtrl := (s.pCtrl ||| 0x08) &&& 0xBF, mph := 3 }) ∧
    (s.mph = 3 → s.idleP = true → exec (.recv a d) s = .next { s with mph := 4 }) ∧
    (s.mph = 1 ∨ s.mph = 3 → s.idleP = false → exec (.recv a d) s = .next s) ∧
    (s.mph = 4 → d = false → exec (.recv a d) s = .next { s with b0 := s.pData, vB0 := true, mph := 5 }) ∧
    (s.mph = 4 → d = true → exec (.recv a d) s = .next { s with b1 := s.pData, vB1 := true, mph := 5 }) ∧
    (s.mph = 5 → a = true → exec (.recv a d) s = .next { s with pCtrl := s.pCtrl &&& 0x9F, mph := 6 }) ∧
    (s.mph = 5 → a = false → exec (.recv a d) s = .next { s with pCtrl := (s.pCtrl ||| 0x20) &&& 0xBF, mph := 6 }) ∧
    (s.mph = 6 → exec (.recv a d) s = .next { s with pCtrl := (s.pCtrl ||| 0x10) &&& 0xBF }.completed)

/-- INIT v (R144): no EN check, legal with no transaction open; P_DIV is `v`, then P_CTRL is 0x80. -/
def Obligations.InitLoadsTheDivisorAndEnables : Prop :=
  ∀ (v : Byte) (s : State), s.ph = 0 →
    (s.mph = 0 → s.txn = .idle → exec (.init v) s = .next { s with mph := 1 }) ∧
    (s.mph = 0 → s.txn ≠ .idle → exec (.init v) s = .next (s.faulted .txnOpen)) ∧
    (s.mph = 1 → s.idleP = true → exec (.init v) s = .next { s with mph := 2 }) ∧
    (s.mph = 1 → s.idleP = false → exec (.init v) s = .next s) ∧
    (s.mph = 2 → exec (.init v) s = .next { s with pDiv := v, mph := 3 }) ∧
    (s.mph = 3 → exec (.init v) s = .next { s with pCtrl := 0x80 }.completed)

/-- DELAY n (R145, R146): one step in every state of the peripheral and of TXN, adding n to ELAPSED_MS. -/
def Obligations.DelayAddsItsMilliseconds : Prop :=
  ∀ (n : BitVec 12) (s : State), s.ph = 0 → s.mph = 0 →
    exec (.delay n) s = .next { s with elapsedMs := s.elapsedMs + n.toNat }.completed

/-- Every cell of the transaction table that is a fault (R131), with EN checked before it (R130, R214): the command
records the fault at its CK and changes nothing else, the bus untouched (R212, R219). -/
def Obligations.ProtocolMisuseFaultsBeforeTheBus : Prop :=
  ∀ (s : State) (b : Byte) (a d : Bool), s.ph = 0 → s.mph = 0 →
    (s.en = false → ∀ i ∈ [Instr.start, .rstart, .stop, .send b, .recv a d], exec i s = .next (s.faulted .notEnabled)) ∧
    (s.en = true →
      (s.txn ≠ .idle → exec .start s = .next (s.faulted .txnOpen)) ∧
      (s.txn = .idle → ∀ i ∈ [Instr.rstart, .stop, .send b, .recv a d], exec i s = .next (s.faulted .noTxn)) ∧
      (s.txn ∈ [Txn.addr, .read, .readMore, .readDone] → exec .rstart s = .next (s.faulted .sequence)) ∧
      (s.txn ∈ [Txn.addr, .read, .readMore] → exec .stop s = .next (s.faulted .sequence)) ∧
      (s.txn ∈ [Txn.read, .readMore, .readDone] → exec (.send b) s = .next (s.faulted .direction)) ∧
      (s.txn ∈ [Txn.addr, .write] → exec (.recv a d) s = .next (s.faulted .direction)) ∧
      (s.txn = .readDone → exec (.recv a d) s = .next (s.faulted .sequence)))

/-! ## The decoder -/

/-- ASM.RH and ASM.T (R160 to R162): the raw value is 64*b0 + floor(b1/4), for every pair of bytes; an unwritten byte
faults. -/
def Obligations.AssemblyWritesTheRawValue : Prop :=
  ∀ s : State, s.ph = 0 → s.mph = 0 →
    (s.vB0 = true → s.vB1 = true →
      exec .asmRh s = .next { s with rawRh := BitVec.ofNat 14 (64 * s.b0.toNat + s.b1.toNat / 4), vRawRh := true }.completed ∧
      exec .asmT s = .next { s with rawT := BitVec.ofNat 14 (64 * s.b0.toNat + s.b1.toNat / 4), vRawT := true }.completed) ∧
    (s.vB0 = false ∨ s.vB1 = false →
      exec .asmRh s = .next (s.faulted .unwritten) ∧ exec .asmT s = .next (s.faulted .unwritten))

/-- DECRH (R164, R165): RH is -6 + 125*raw/16384 truncated toward zero; an unwritten RAW_RH faults. -/
def Obligations.HumidityIsTruncatedTowardZero : Prop :=
  ∀ s : State, s.ph = 0 → s.mph = 0 →
    (s.vRawRh = true →
      exec .decRh s =
        .next { s with rh := BitVec.ofInt 16 (Int.tdiv (125 * s.rawRh.toNat - 98304) 16384), vRh := true }.completed) ∧
    (s.vRawRh = false → exec .decRh s = .next (s.faulted .unwritten))

/-- DECT (R168, R169): TC is the integer `q` nearest to (17572*raw - 76759040)/16384, a half going away from zero, which
occurs at four raw values only; an unwritten RAW_T faults. -/
def Obligations.TemperatureIsRoundedHalfAway : Prop :=
  ∀ s : State, s.ph = 0 → s.mph = 0 →
    (s.vRawT = true → ∃ q : Int,
      exec .decT s = .next { s with tc := BitVec.ofInt 16 q, vTc := true }.completed ∧
      (let n : Int := 17572 * s.rawT.toNat - 76759040
       2 * (16384 * q - n).natAbs ≤ 16384 ∧ (2 * (16384 * q - n).natAbs = 16384 → n.natAbs ≤ (16384 * q).natAbs) ∧
       (2 * (16384 * q - n).natAbs = 16384 ↔ s.rawT.toNat ∈ [2048, 6144, 10240, 14336]) ∧
       (s.rawT.toNat = 2048 → q = -2489))) ∧
    (s.vRawT = false → exec .decT s = .next (s.faulted .unwritten))

/-- The humidity conversion stays in [-6, 118], does not decrease, and shows values below 0 exactly up to 655 and above
100 exactly from 14025 (R166; the range and the order are the spec's inference). -/
def Obligations.HumidityRangeAndOrder : Prop :=
  ∀ r : Nat, r ≤ 16383 →
    -6 ≤ rhOf r ∧ rhOf r ≤ 118 ∧ rhOf r ≤ rhOf (r + 1) ∧ (rhOf r < 0 ↔ r ≤ 655) ∧ (100 < rhOf r ↔ 14025 ≤ r)

/-- The temperature conversion stays in [-4685, 12886], strictly increases, and is within half a hundredth of the exact
temperature (the inference of R170). -/
def Obligations.TemperatureRangeAndOrder : Prop :=
  ∀ r : Nat, r ≤ 16383 →
    -4685 ≤ tcOf r ∧ tcOf r ≤ 12886 ∧ tcOf r < tcOf (r + 1) ∧
    2 * (16384 * tcOf r - (17572 * r - 76759040)).natAbs ≤ 16384

/-- FMTRH and FMTT (R172, R174) append the string to OUT, keep the valid bit, and fault on an unwritten register. -/
def Obligations.FormatAppendsTheString : Prop :=
  ∀ s : State, s.ph = 0 → s.mph = 0 →
    (s.vRh = true → exec .fmtRh s = .next { s with out := s.out ++ rhStr s.rh.toInt }.completed) ∧
    (s.vRh = false → exec .fmtRh s = .next (s.faulted .unwritten)) ∧
    (s.vTc = true → exec .fmtT s = .next { s with out := s.out ++ tStr s.tc.toInt }.completed) ∧
    (s.vTc = false → exec .fmtT s = .next (s.faulted .unwritten))

/-- The strings of R171 and R173 for every value in range: their length, the minus sign exactly for a negative value,
the digits' value, and the fixed bytes. -/
def Obligations.DisplayStringsSpellTheirValues : Prop :=
  (∀ v : Int, -6 ≤ v → v ≤ 118 → ∃ ds : List Byte,
    rhStr v = (if v < 0 then [0x2D] else []) ++ ds ++ [0x25] ∧
    (∀ x ∈ ds, 0x30 ≤ x.toNat ∧ x.toNat ≤ 0x39) ∧ ds.foldl (fun n x => 10 * n + (x.toNat - 0x30)) 0 = v.natAbs ∧
    ds ≠ [] ∧ (ds.head? = some 0x30 → ds = [0x30]) ∧ 2 ≤ (rhStr v).length ∧ (rhStr v).length ≤ 4) ∧
  (∀ c : Int, -4685 ≤ c → c ≤ 12886 → ∃ (ds : List Byte) (x y : Byte),
    tStr c = (if c < 0 then [0x2D] else []) ++ ds ++ [0x2E, x, y, 0x20, 0x43] ∧
    (∀ z ∈ x :: y :: ds, 0x30 ≤ z.toNat ∧ z.toNat ≤ 0x39) ∧
    100 * ds.foldl (fun n z => 10 * n + (z.toNat - 0x30)) 0 + 10 * (x.toNat - 0x30) + (y.toNat - 0x30) = c.natAbs ∧
    ds ≠ [] ∧ (ds.head? = some 0x30 → ds = [0x30]) ∧ 6 ≤ (tStr c).length ∧ (tStr c).length ≤ 8)

/-- The decoder commands depend on nothing but the registers they read (the inference of R176): from two states that
agree on them they write the same results and emit the same bytes. -/
def Obligations.DecoderDependsOnItsOperandsOnly : Prop :=
  ∀ (s₁ s₂ t₁ : State) (i : Instr), i ∈ [Instr.asmRh, .asmT, .decRh, .decT, .fmtRh, .fmtT] →
    s₁.ph = 0 → s₁.mph = 0 → s₂.ph = 0 → s₂.mph = 0 → s₁.b0 = s₂.b0 → s₁.b1 = s₂.b1 → s₁.rawRh = s₂.rawRh →
    s₁.rawT = s₂.rawT → s₁.rh = s₂.rh → s₁.tc = s₂.tc → s₁.vB0 = s₂.vB0 → s₁.vB1 = s₂.vB1 → s₁.vRawRh = s₂.vRawRh →
    s₁.vRawT = s₂.vRawT → s₁.vRh = s₂.vRh → s₁.vTc = s₂.vTc → s₁.halt = s₂.halt → exec i s₁ = .next t₁ →
    ∃ (t₂ : State) (e : List Byte), exec i s₂ = .next t₂ ∧ t₂.rawRh = t₁.rawRh ∧ t₂.rawT = t₁.rawT ∧ t₂.rh = t₁.rh ∧
      t₂.tc = t₁.tc ∧ t₁.out = s₁.out ++ e ∧ t₂.out = s₂.out ++ e ∧ t₂.halt = t₁.halt

/-! ## The sequencer -/

/-- The lists of R194, and each primitive in them runs its μops, its CK included, as if it had been issued: what the
primitive alone does from PH = 0, the compound command does at its phase, going on where the primitive ends. No step of
any agent changes the lists. -/
def Obligations.CompoundCommandsRunTheirPrimitives : Prop :=
  (∀ c : Config,
    let meas (cmd : Byte) (asm conv : Instr) : List Instr :=
      [.start, .send (c.sensorAddr7 ++ (0 : BitVec 1)), .send cmd, .rstart, .send (c.sensorAddr7 ++ (1 : BitVec 1)),
       .recv true false, .recv false true, .stop, .delay 200, asm, conv]
    primsOf c .measRh = meas c.cmdRh .asmRh .decRh ∧ primsOf c .measT = meas c.cmdT .asmT .decT ∧
    primsOf c .cycle = meas c.cmdRh .asmRh .decRh ++ meas c.cmdT .asmT .decT ++ [.fmtRh, .fmtT]) ∧
  (∀ (c p : Instr) (s t : State), isCompound c = true → (primsOf s.cfg c)[s.ph.toNat]? = some p → s.busy = true →
    s.halt = false → exec p { s with ph := 0 } = .next t →
    (t.busy = true ∨ t.halt = true → exec c s = .next { t with ph := s.ph }) ∧
    (t.busy = false → t.halt = false →
      exec c s = .next (if s.ph.toNat + 1 < (primsOf s.cfg c).length
        then { t with ph := s.ph + 1, busy := true, cur := s.cur } else t))) ∧
  (∀ (s t : State) (i : Instr), step s = .next t → primsOf t.cfg i = primsOf s.cfg i)

/-- MEAS.RH, MEAS.T and CYCLE at their first check and at their last μop (R191 to R194): the check of START opens the
transaction, or faults NOT_ENABLED or TXN_OPEN; the last conversion, or the last string, completes the command. -/
def Obligations.CompoundCommandsOpenAndComplete : Prop :=
  ∀ s : State,
    (s.ph = 0 → s.mph = 0 → s.en = true → s.txn = .idle → ∀ i ∈ [Instr.measRh, .measT, .cycle],
      exec i s = .next { s with txn := .addr, vB0 := false, vB1 := false, mph := 1 }) ∧
    (s.ph = 0 → s.mph = 0 → ∀ i ∈ [Instr.measRh, .measT, .cycle],
      (s.en = false → exec i s = .next (s.faulted .notEnabled)) ∧
      (s.en = true → s.txn ≠ .idle → exec i s = .next (s.faulted .txnOpen))) ∧
    (s.ph = 10 → s.mph = 0 → s.vRawRh = true →
      exec .measRh s =
        .next { s with rh := BitVec.ofInt 16 (Int.tdiv (125 * s.rawRh.toNat - 98304) 16384), vRh := true }.completed) ∧
    (s.ph = 10 → s.mph = 0 → s.vRawT = true → ∃ q : Int,
      exec .measT s = .next { s with tc := BitVec.ofInt 16 q, vTc := true }.completed ∧
      2 * (16384 * q - (17572 * s.rawT.toNat - 76759040)).natAbs ≤ 16384) ∧
    (s.ph = 23 → s.mph = 0 → s.vTc = true →
      exec .cycle s = .next { s with out := s.out ++ tStr s.tc.toInt }.completed)

/-- A whole fault-free measurement under a fair peripheral (R191, R192, and the inference of R196): from an enabled idle
block, with the slave answering x then y, 46 steps run MEAS.RH or MEAS.T to its end, with this BUSLOG and these results.
The number of steps and the order of the agents are the model's default schedule (log 2). -/
def Obligations.MeasurementRunsToItsResult : Prop :=
  ∀ (s : State) (r : Reading) (x y : Byte) (k₁ k₂ k₃ : Bool) (xs : List Byte) (ks : List Bool),
    s.turns = [.write 0 (match r with | .rh => 0xE000 | .t => 0xE001)] → s.busy = false → s.halt = false →
    s.en = true → s.txn = .idle → s.idleP = true → s.cfg.periphFair = true → s.rxIn = x :: y :: xs →
    s.ackIn = k₁ :: k₂ :: k₃ :: ks →
    let raw := 64 * x.toNat + y.toNat / 4
    let u : State := { s with
      turns := [], rxIn := xs, ackIn := ks, pCtrl := 0xA0, pStat := withBit s.pStat 1 k₃, pData := y
      b0 := x, b1 := y, vB0 := true, vB1 := true, elapsedMs := s.elapsedMs + 200
      cur := 0, ph := 0, mph := 0
      busLog := s.busLog ++ [.start, .tx (s.cfg.sensorAddr7 ++ (0 : BitVec 1)) k₁,
        .tx (match r with | .rh => s.cfg.cmdRh | .t => s.cfg.cmdT) k₂, .rstart,
        .tx (s.cfg.sensorAddr7 ++ (1 : BitVec 1)) k₃, .rx x, .ackout false, .rx y, .ackout true, .stop] }
    Sys2Proof.core.run 46 s = .next (match r with
      | .rh => { u with rawRh := BitVec.ofNat 14 raw, vRawRh := true, rh := BitVec.ofInt 16 (rhOf raw), vRh := true }
      | .t => { u with rawT := BitVec.ofNat 14 raw, vRawT := true, tc := BitVec.ofInt 16 (tcOf raw), vTc := true })

/-- A whole fault-free CYCLE under a fair peripheral (R193, R194, and the inference of R196): after 93 steps it has
completed, OUT has gained the humidity string and then the temperature string, and two transactions and 400 ms are
recorded. The number of steps and the order of the agents are the model's default schedule (log 2). -/
def Obligations.CycleShowsBothReadings : Prop :=
  ∀ (s : State) (x y z w : Byte) (k₁ k₂ k₃ k₄ k₅ k₆ : Bool) (xs : List Byte) (ks : List Bool),
    s.turns = [.write 0 0xF000] → s.busy = false → s.halt = false → s.en = true → s.txn = .idle → s.idleP = true →
    s.cfg.periphFair = true → s.rxIn = x :: y :: z :: w :: xs → s.ackIn = k₁ :: k₂ :: k₃ :: k₄ :: k₅ :: k₆ :: ks →
    ∃ t : State, Sys2Proof.core.run 93 s = .next t ∧ t.busy = false ∧ t.halt = false ∧ t.txn = .idle ∧
      t.rh.toInt = rhOf (64 * x.toNat + y.toNat / 4) ∧ t.tc.toInt = tcOf (64 * z.toNat + w.toNat / 4) ∧
      t.out = s.out ++ rhStr (rhOf (64 * x.toNat + y.toNat / 4)) ++ tStr (tcOf (64 * z.toNat + w.toNat / 4)) ∧
      t.elapsedMs = s.elapsedMs + 400 ∧
      (let addrWrite : Byte := s.cfg.sensorAddr7 ++ (0 : BitVec 1)
       let addrRead : Byte := s.cfg.sensorAddr7 ++ (1 : BitVec 1)
       t.busLog = s.busLog ++
        [.start, .tx addrWrite k₁, .tx s.cfg.cmdRh k₂, .rstart, .tx addrRead k₃, .rx x, .ackout false, .rx y,
         .ackout true, .stop] ++
        [.start, .tx addrWrite k₄, .tx s.cfg.cmdT k₅, .rstart, .tx addrRead k₆, .rx z, .ackout false, .rx w,
         .ackout true, .stop])

/-- In a compound command only the first check can fault (the inference of R195): its table holds from there on through every step, and
while it holds no step records a fault. -/
def Obligations.CompoundFaultsAtTheFirstCheckOnly : Prop :=
  ∀ s t : State, s.compoundOk = true → step s = .next t →
    t.compoundOk = true ∧
    (∀ i, s.running = some i → isCompound i = true → (s.ph ≠ 0 ∨ s.mph ≠ 0) → t.halt = false)

/-! ## The peripheral -/

/-- The six completion steps of R230, each enabled by its bit and EN, the slave's answers named in the state or free (log
6); a step that is not enabled changes nothing (log 12). -/
def Obligations.PeripheralCompletionsAreThoseOfTheTable : Prop :=
  ∀ (s : State) (op : PeriphOp) (ts : List Turn), s.turns = .periph op :: ts →
    let u : State := { s with turns := ts }
    (s.en = false → step s = .next u) ∧
    (s.en = true →
      (op = .pStart → step s = .next (if s.trigger .sen then { u with pCtrl := s.pCtrl &&& 0xFE, busLog := s.busLog ++ [.start] } else u)) ∧
      (op = .pRstart → step s = .next (if s.trigger .rsen then { u with pCtrl := s.pCtrl &&& 0xFD, busLog := s.busLog ++ [.rstart] } else u)) ∧
      (op = .pStop → step s = .next (if s.trigger .pen then { u with pCtrl := s.pCtrl &&& 0xFB, busLog := s.busLog ++ [.stop] } else u)) ∧
      (op = .pAck → step s = .next (if s.trigger .acken then { u with pCtrl := s.pCtrl &&& 0xEF, busLog := s.busLog ++ [.ackout s.ackdt] } else u)) ∧
      (op = .pRx → s.trigger .rcen = false → step s = .next u) ∧
      (op = .pRx → s.trigger .rcen = true → ∀ x xs, s.rxIn = x :: xs →
        step s = .next { u with pData := x, pCtrl := s.pCtrl &&& 0xF7, rxIn := xs, busLog := s.busLog ++ [.rx x] }) ∧
      (op = .pRx → s.trigger .rcen = true → s.rxIn = [] → ∃ x,
        step s = .next { u with pData := x, pCtrl := s.pCtrl &&& 0xF7, draws := s.draws + 1, busLog := s.busLog ++ [.rx x] }) ∧
      (op = .pTx → s.txBusy = false → step s = .next u) ∧
      (op = .pTx → s.txBusy = true → ∀ k ks, s.ackIn = k :: ks →
        step s = .next { u with pStat := (s.pStat &&& 0xFC) ||| (if k then 0x02 else 0x00), ackIn := ks, busLog := s.busLog ++ [.tx s.pData k] }) ∧
      (op = .pTx → s.txBusy = true → s.ackIn = [] → ∃ k : Bool,
        step s = .next { u with pStat := (s.pStat &&& 0xFC) ||| (if k then 0x02 else 0x00), draws := s.draws + 1, busLog := s.busLog ++ [.tx s.pData k] }))

/-- A completion step sets no trigger bit and leaves EN, ACKDT, P_DIV and every register of the driver alone (R38,
R233). -/
def Obligations.PeripheralSetsNoTrigger : Prop :=
  ∀ (s : State) (op : PeriphOp),
    let t := periphTurn op s
    (∀ k, k < 5 → t.pCtrl.getLsbD k = true → s.pCtrl.getLsbD k = true) ∧ (t.txBusy = true → s.txBusy = true) ∧
    t.en = s.en ∧ t.ackdt = s.ackdt ∧
    { t with pCtrl := s.pCtrl, pStat := s.pStat, pData := s.pData, busLog := s.busLog, rxIn := s.rxIn, ackIn := s.ackIn, draws := s.draws } = s

/-- The driver never writes 0 to a trigger bit that reads 1 (the inference of R31), in states that meet the invariant of
`AtMostOneOperationPending`. -/
def Obligations.DriverClearsNoTrigger : Prop :=
  ∀ (s t : State) (i : Instr) (k : Nat), s.pendingOk = true → s.running = some i → exec i s = .next t → k < 5 →
    s.pCtrl.getLsbD k = true → t.pCtrl.getLsbD k = true

/-- At most one of SEN, RSEN, PEN, RCEN, ACKEN and BUSY is 1, and it stays so (the inference of R48). -/
def Obligations.AtMostOneOperationPending : Prop :=
  ∀ s t : State, s.pendingOk = true → step s = .next t → t.pendingOk = true ∧ t.pendingCount ≤ 1

/-- Only the peripheral appends to BUSLOG (R53, R232): a step other than a reset leaves it as it is, or is the effect of
an enabled completion step, which appends that step's one entry of R230. -/
def Obligations.BusLogGrowsByCompletionsOnly : Prop :=
  ∀ s t : State, step s = .next t → s.turns.head? ≠ some .reset →
    t.busLog = s.busLog ∨
    ∃ op : PeriphOp, periphEnabled op s = true ∧ t.busLog = s.busLog ++ [busEntry op s] ∧
      (t = periphEffect op s ∨ ∃ ts, s.turns = .periph op :: ts ∧ t = periphEffect op { s with turns := ts })

/-- With PERIPH_FAIR an enabled peripheral lifts a hold in one step; without it, and with no other agent's turn to
come, the driver holds forever: the step leaves the state as it is (R45, R234; "in one step" and a step that changes
nothing are the model's, log 2, 12). -/
def Obligations.HoldIsLiftedOnlyByTheFairPeripheral : Prop :=
  ∀ s : State, s.pendingOk = true → s.turns = [] → s.curUop = some .hold → s.idleP = false → s.en = true →
    (s.cfg.periphFair = true → ∃ t, step s = .next t ∧ t.idleP = true ∧ t.ph = s.ph ∧ t.mph = s.mph ∧ t.busy = s.busy) ∧
    (s.cfg.periphFair = false → ∀ k, Sys2Proof.core.run k s = .next s)

/-- With PERIPH_FAIR every command ends, completed or faulted, in at most 150 steps (the inference of R234); the bound is the model's, of
its schedule (log 2). -/
def Obligations.EveryCommandEndsUnderFairness : Prop :=
  ∀ s : State, s.positionOk = true → s.pendingOk = true → s.cfg.periphFair = true → s.turns = [] →
    (s.en = true ∨ s.idleP = true) → ∃ k t, k ≤ 150 ∧ Sys2Proof.core.run k s = .next t ∧ t.busy = false

/-! ## Rules of the whole machine -/

/-- The phase counter only advances (R43, R46, R47): a step of a command faults and keeps it, holds and keeps it, or
moves to the next μop, the next primitive, or the end. -/
def Obligations.PhaseCounterOnlyAdvances : Prop :=
  ∀ (i p : Instr) (s t : State), (primsOf s.cfg i)[s.ph.toNat]? = some p → exec i s = .next t →
    (∃ c, c ≠ .none ∧ t = s.faulted c) ∨
    ((uopsOf p)[s.mph.toNat]? = some .hold ∧ s.idleP = false ∧ t = s) ∨
    (s.mph.toNat + 1 < (uopsOf p).length ∧ t.mph.toNat = s.mph.toNat + 1 ∧ t.ph = s.ph ∧ t.busy = s.busy ∧ t.cur = s.cur) ∨
    (s.mph.toNat + 1 = (uopsOf p).length ∧ s.ph.toNat + 1 < (primsOf s.cfg i).length ∧
      t.ph.toNat = s.ph.toNat + 1 ∧ t.mph = 0 ∧ t.busy = s.busy ∧ t.cur = s.cur) ∨
    (s.mph.toNat + 1 = (uopsOf p).length ∧ s.ph.toNat + 1 = (primsOf s.cfg i).length ∧
      t.ph = 0 ∧ t.mph = 0 ∧ t.busy = false ∧ t.cur = 0)

/-- Faults are precise (R212, and the inference of R219): if a step of a command records a fault, the record is all that changed. -/
def Obligations.FaultsArePrecise : Prop :=
  ∀ (i : Instr) (s t : State), s.halt = false → exec i s = .next t → t.halt = true →
    ∃ c, c ≠ .none ∧ c ≠ .illegal ∧ t = s.faulted c

/-- Only the FMT commands append to OUT, only DELAY advances ELAPSED_MS, only INIT writes P_DIV, and no command step
reads or writes the environment's inputs (R34, R52, R54). -/
def Obligations.OutTimeAndDivisorHaveOneWriter : Prop :=
  ∀ (i p : Instr) (s t : State), (primsOf s.cfg i)[s.ph.toNat]? = some p → exec i s = .next t →
    (∃ e, t.out = s.out ++ e) ∧ (t.out ≠ s.out → p = .fmtRh ∨ p = .fmtT) ∧
    s.elapsedMs ≤ t.elapsedMs ∧ (t.elapsedMs ≠ s.elapsedMs → ∃ n, p = .delay n) ∧
    (t.pDiv ≠ s.pDiv → ∃ v, p = .init v) ∧
    t.turns = s.turns ∧ t.rxIn = s.rxIn ∧ t.ackIn = s.ackIn ∧ t.draws = s.draws ∧ t.rdata = s.rdata ∧ t.busLog = s.busLog

/-- The slave's acknowledge is never read (R138): a command does the same in two states that differ only in ACKSTAT. -/
def Obligations.SlaveAcknowledgeIsIgnored : Prop :=
  ∀ (i : Instr) (s : State) (k : Bool),
    (∀ t, exec i s = .next t → exec i (s.withAckstat k) = .next (t.withAckstat k)) ∧
    (∀ f, exec i s = .fault f → exec i (s.withAckstat k) = .fault f) ∧
    (∀ f, exec i s ≠ .refused f)

/-- TXN leaves IDLE only through START, and returns to it only through STOP or a reset of the block (the inference of R147). -/
def Obligations.TransactionsOpenByStartAndCloseByStop : Prop :=
  ∀ s t : State, step s = .next t →
    (s.txn = .idle → t.txn ≠ .idle → s.curPrim = some .start) ∧
    (s.txn ≠ .idle → t.txn = .idle → s.curPrim = some .stop ∨ s.turns.head? = some .reset)

/-- BUSLOG is a legal framing at every step (the inferences of R142, R147, R148): what is on the bus, what is pending and what the
running primitive owes keep to the framing and end where TXN says, so every received byte but the last of a
transaction is acknowledged and the last is not. -/
def Obligations.BusFramingStaysLegal : Prop :=
  ∀ s t : State, s.framingOk = true → step s = .next t → t.framingOk = true ∧ (lineAfter .free t.busLog).isSome = true

/-- No step stops the model from a state that meets the position invariant, unless the environment takes a refused
action; the invariant is kept (the inferences of R47 and R78; the stops are the model's, log 9, 10, 13). -/
def Obligations.NoStepStopsTheMachine : Prop :=
  ∀ s : State, s.positionOk = true → s.turns.all (fun t => t.permitted) = true →
    ∃ t, step s = .next t ∧ t.positionOk = true ∧ t.turns.all (fun t => t.permitted) = true

/-- The reserved bits of P_CTRL and P_STAT stay 0 (R31, R32). -/
def Obligations.ReservedBitsStayZero : Prop :=
  ∀ s t : State, s.reservedOk = true → step s = .next t → t.reservedOk = true

/-- A valid RH stays in [-6, 118] and a valid TC in [-4685, 12886], through every step (R35, R166, R170). -/
def Obligations.ValidReadingsStayInRange : Prop :=
  ∀ s t : State, s.rangesOk = true → step s = .next t → t.rangesOk = true

/-- While the block rests without a fault, CUR, PH and MPH are 0, through every step (R42, R46). -/
def Obligations.RestingBlockHoldsNoCommand : Prop :=
  ∀ s t : State, s.restOk = true → step s = .next t → t.restOk = true

/-- The state at launch (R56, R241; its data registers are log 4 and not stated): it meets the launch premise and every
invariant above, STATUS, FAULT and SEQ read 0 (the inference of R243), and it is final (R238). -/
def Obligations.LaunchStateMeetsTheInvariants : Prop :=
  let s := State.reset
  s.launchPremise = true ∧ s.pendingOk = true ∧ s.framingOk = true ∧ s.positionOk = true ∧ s.faultRecordOk = true ∧
  s.reservedOk = true ∧ s.rangesOk = true ∧ s.restOk = true ∧ s.compoundOk = true ∧ s.final = true ∧
  s.statusWord = 0 ∧ s.seqWord = 0 ∧ s.fault = .none ∧ s.out = [] ∧ s.busLog = [] ∧ s.elapsedMs = 0
end

