-- ==== Sys2Proof/Laws/Bits.lean ====
section
/-! SUPPORT. The bits of the peripheral registers: what `withBit` and the masks do to one bit, and `idle(P)` by bits. -/

namespace Sys2Proof.Machine

theorem getLsbD_withBit (x : Byte) {k : Nat} (hk : k < 8) (v : Bool) (j : Nat) :
    (withBit x k v).getLsbD j = if j = k then v else x.getLsbD j := by
  have h1 : ∀ j, (1#8 <<< k).getLsbD j = decide (j = k) := by
    intro j
    simp only [BitVec.getLsbD_shiftLeft, BitVec.getLsbD_one]
    rcases Nat.lt_trichotomy j k with h | h | h
    · simp [h, Nat.ne_of_lt h]
    · subst h; simp [hk]
    · have : j - k ≠ 0 := by omega
      simp [this, (Nat.ne_of_gt h)]
  unfold withBit
  by_cases hj : j = k
  · subst hj; cases v <;> simp [hk]
  · cases v
    · simp only [Bool.false_eq_true, if_false, BitVec.getLsbD_and, BitVec.getLsbD_not, h1, hj, decide_false]
      by_cases h8 : j < 8
      · simp [h8]
      · simp [h8, BitVec.getLsbD_of_ge x j (by omega)]
    · simp [h1, hj]

/-- Reserved bit 6 of P_CTRL reads 0, every other bit as it is. -/
theorem getLsbD_ctrlMask (x : Byte) (j : Nat) : (x &&& ctrlMask).getLsbD j = (x.getLsbD j && (j != 6)) := by
  by_cases h8 : j < 8
  · have : ∀ (x : Byte) (j : Fin 8), (x &&& ctrlMask).getLsbD j = (x.getLsbD j && ((j : Nat) != 6)) := by decide
    exact this x ⟨j, h8⟩
  · rw [BitVec.getLsbD_of_ge _ _ (by omega), BitVec.getLsbD_of_ge x _ (by omega)]; rfl

/-- No trigger bit is set exactly when bits 0 to 4 are 0 (R37). -/
theorem triggers_clear_iff (x : Byte) :
    (x &&& 0x1F == 0) =
      (!x.getLsbD 0 && !x.getLsbD 1 && !x.getLsbD 2 && !x.getLsbD 3 && !x.getLsbD 4) := by
  revert x; decide

/-! The writes of P_CTRL's bits, as masks. -/

theorem set_sen (x : Byte) : withBit (x &&& ctrlMask) 0 true &&& ctrlMask = (x ||| 0x01) &&& 0xBF := by revert x; decide

theorem set_rsen (x : Byte) : withBit (x &&& ctrlMask) 1 true &&& ctrlMask = (x ||| 0x02) &&& 0xBF := by revert x; decide

theorem set_pen (x : Byte) : withBit (x &&& ctrlMask) 2 true &&& ctrlMask = (x ||| 0x04) &&& 0xBF := by revert x; decide

theorem set_rcen (x : Byte) : withBit (x &&& ctrlMask) 3 true &&& ctrlMask = (x ||| 0x08) &&& 0xBF := by revert x; decide

theorem set_acken (x : Byte) : withBit (x &&& ctrlMask) 4 true &&& ctrlMask = (x ||| 0x10) &&& 0xBF := by revert x; decide

theorem set_ackdt (x : Byte) : withBit (x &&& ctrlMask) 5 true &&& ctrlMask = (x ||| 0x20) &&& 0xBF := by revert x; decide

theorem clear_ackdt (x : Byte) : withBit (x &&& ctrlMask) 5 false &&& ctrlMask = x &&& 0x9F := by revert x; decide

/-- The bits a P_CTRL write leaves: the one written, and the others but for reserved bit 6. -/
theorem getLsbD_ctrl_write (x : Byte) {k : Nat} (hk : k < 8) (v : Bool) (j : Nat) :
    (withBit (x &&& ctrlMask) k v &&& ctrlMask).getLsbD j = ((if j = k then v else x.getLsbD j) && (j != 6)) := by
  rw [getLsbD_ctrlMask, getLsbD_withBit _ hk, getLsbD_ctrlMask]
  split_ifs <;> simp

/-- `idle(P)` by bits (R37). -/
theorem idleP_eq (s : State) :
    s.idleP = (!s.trigger .sen && !s.trigger .rsen && !s.trigger .pen && !s.trigger .rcen && !s.trigger .acken &&
      !s.txBusy) := by
  simp only [State.idleP, triggers_clear_iff, State.trigger, Trigger.bit]

/-- A byte read through the mask is the byte itself once its reserved bits are 0. -/
theorem and_mask_of_reserved {x m : Byte} (h : x &&& ~~~m = 0) : x &&& m = x := by
  have : x = (x &&& m) ||| (x &&& ~~~m) := by
    apply BitVec.eq_of_getLsbD_eq; intro i hi; simp [hi, ← Bool.and_or_distrib_left]
  rw [h] at this; simpa using this.symm

end Sys2Proof.Machine
end

