-- ==== Sys2Proof/Laws/PerInstr.lean ====
section
/-! SUPPORT. Laws stated of every constructor of `Instr`, one lemma each. -/

namespace Sys2Proof.Laws

/-- The match and mask of a command's row, written out from R106 a second time. -/
def rowOf : Instr → Word × Word
  | .waitIdle => (0x1000, 0xFFFF)
  | .start => (0x2000, 0xFFFF)
  | .rstart => (0x3000, 0xFFFF)
  | .stop => (0x4000, 0xFFFF)
  | .send _ => (0x5000, 0xFF00)
  | .recv _ _ => (0x6000, 0xFCFF)
  | .delay _ => (0x7000, 0xF000)
  | .init _ => (0x8000, 0xFF00)
  | .asmRh => (0x9000, 0xFFFF)
  | .asmT => (0x9001, 0xFFFF)
  | .decRh => (0xA000, 0xFFFF)
  | .decT => (0xB000, 0xFFFF)
  | .fmtRh => (0xC000, 0xFFFF)
  | .fmtT => (0xD000, 0xFFFF)
  | .measRh => (0xE000, 0xFFFF)
  | .measT => (0xE001, 0xFFFF)
  | .cycle => (0xF000, 0xFFFF)

namespace EncodeMatchesRow

/-- The word of a command selects its row of R106, and sets no reserved bit. -/
def Statement (i : Instr) : Prop := encode i &&& (rowOf i).2 = (rowOf i).1

theorem waitIdle : Statement .waitIdle := rfl
theorem start : Statement .start := rfl
theorem rstart : Statement .rstart := rfl
theorem stop : Statement .stop := rfl
theorem send (b : Byte) : Statement (.send b) := by revert b; unfold Statement; decide
theorem recv (a d : Bool) : Statement (.recv a d) := by cases a <;> cases d <;> rfl

theorem delay (n : BitVec 12) : Statement (.delay n) := by
  apply BitVec.eq_of_getLsbD_eq
  intro k hk
  simp only [encode, rowOf, BitVec.getLsbD_and, BitVec.getLsbD_or, BitVec.getLsbD_setWidth]
  by_cases h : k < 12
  · interval_cases k <;> simp
  · rw [BitVec.getLsbD_of_ge n k (by omega)]
    interval_cases k <;> first | omega | rfl

theorem init (v : Byte) : Statement (.init v) := by revert v; unfold Statement; decide
theorem asmRh : Statement .asmRh := rfl
theorem asmT : Statement .asmT := rfl
theorem decRh : Statement .decRh := rfl
theorem decT : Statement .decT := rfl
theorem fmtRh : Statement .fmtRh := rfl
theorem fmtT : Statement .fmtT := rfl
theorem measRh : Statement .measRh := rfl
theorem measT : Statement .measT := rfl
theorem cycle : Statement .cycle := rfl

end EncodeMatchesRow

end Sys2Proof.Laws
end

