-- ==== Sys2Proof/Laws/State.lean ====
section
/-! SUPPORT. One lemma per field per named update of the state, so that no later proof unfolds an update. -/

namespace Sys2Proof.Machine

/-! ### raiseFault -/

@[simp] theorem raiseFault_pCtrl (c : FaultCode) (s : State) : (raiseFault c s).pCtrl = s.pCtrl := rfl
@[simp] theorem raiseFault_pStat (c : FaultCode) (s : State) : (raiseFault c s).pStat = s.pStat := rfl
@[simp] theorem raiseFault_pData (c : FaultCode) (s : State) : (raiseFault c s).pData = s.pData := rfl
@[simp] theorem raiseFault_pDiv (c : FaultCode) (s : State) : (raiseFault c s).pDiv = s.pDiv := rfl
@[simp] theorem raiseFault_b0 (c : FaultCode) (s : State) : (raiseFault c s).b0 = s.b0 := rfl
@[simp] theorem raiseFault_b1 (c : FaultCode) (s : State) : (raiseFault c s).b1 = s.b1 := rfl
@[simp] theorem raiseFault_rawRh (c : FaultCode) (s : State) : (raiseFault c s).rawRh = s.rawRh := rfl
@[simp] theorem raiseFault_rawT (c : FaultCode) (s : State) : (raiseFault c s).rawT = s.rawT := rfl
@[simp] theorem raiseFault_rh (c : FaultCode) (s : State) : (raiseFault c s).rh = s.rh := rfl
@[simp] theorem raiseFault_tc (c : FaultCode) (s : State) : (raiseFault c s).tc = s.tc := rfl
@[simp] theorem raiseFault_vB0 (c : FaultCode) (s : State) : (raiseFault c s).vB0 = s.vB0 := rfl
@[simp] theorem raiseFault_vB1 (c : FaultCode) (s : State) : (raiseFault c s).vB1 = s.vB1 := rfl
@[simp] theorem raiseFault_vRawRh (c : FaultCode) (s : State) : (raiseFault c s).vRawRh = s.vRawRh := rfl
@[simp] theorem raiseFault_vRawT (c : FaultCode) (s : State) : (raiseFault c s).vRawT = s.vRawT := rfl
@[simp] theorem raiseFault_vRh (c : FaultCode) (s : State) : (raiseFault c s).vRh = s.vRh := rfl
@[simp] theorem raiseFault_vTc (c : FaultCode) (s : State) : (raiseFault c s).vTc = s.vTc := rfl
@[simp] theorem raiseFault_txn (c : FaultCode) (s : State) : (raiseFault c s).txn = s.txn := rfl
@[simp] theorem raiseFault_fault (c : FaultCode) (s : State) : (raiseFault c s).fault = c := rfl
@[simp] theorem raiseFault_fcmd (c : FaultCode) (s : State) : (raiseFault c s).fcmd = s.cur := rfl
@[simp] theorem raiseFault_halt (c : FaultCode) (s : State) : (raiseFault c s).halt = true := rfl
@[simp] theorem raiseFault_cur (c : FaultCode) (s : State) : (raiseFault c s).cur = s.cur := rfl
@[simp] theorem raiseFault_busy (c : FaultCode) (s : State) : (raiseFault c s).busy = false := rfl
@[simp] theorem raiseFault_ph (c : FaultCode) (s : State) : (raiseFault c s).ph = s.ph := rfl
@[simp] theorem raiseFault_mph (c : FaultCode) (s : State) : (raiseFault c s).mph = s.mph := rfl
@[simp] theorem raiseFault_out (c : FaultCode) (s : State) : (raiseFault c s).out = s.out := rfl
@[simp] theorem raiseFault_busLog (c : FaultCode) (s : State) : (raiseFault c s).busLog = s.busLog := rfl
@[simp] theorem raiseFault_elapsedMs (c : FaultCode) (s : State) : (raiseFault c s).elapsedMs = s.elapsedMs := rfl
@[simp] theorem raiseFault_cfg (c : FaultCode) (s : State) : (raiseFault c s).cfg = s.cfg := rfl
@[simp] theorem raiseFault_turns (c : FaultCode) (s : State) : (raiseFault c s).turns = s.turns := rfl
@[simp] theorem raiseFault_rxIn (c : FaultCode) (s : State) : (raiseFault c s).rxIn = s.rxIn := rfl
@[simp] theorem raiseFault_ackIn (c : FaultCode) (s : State) : (raiseFault c s).ackIn = s.ackIn := rfl
@[simp] theorem raiseFault_draws (c : FaultCode) (s : State) : (raiseFault c s).draws = s.draws := rfl
@[simp] theorem raiseFault_rdata (c : FaultCode) (s : State) : (raiseFault c s).rdata = s.rdata := rfl

/-! ### latch -/

@[simp] theorem latch_pCtrl (w : Word) (s : State) : (latch w s).pCtrl = s.pCtrl := rfl
@[simp] theorem latch_pStat (w : Word) (s : State) : (latch w s).pStat = s.pStat := rfl
@[simp] theorem latch_pData (w : Word) (s : State) : (latch w s).pData = s.pData := rfl
@[simp] theorem latch_pDiv (w : Word) (s : State) : (latch w s).pDiv = s.pDiv := rfl
@[simp] theorem latch_b0 (w : Word) (s : State) : (latch w s).b0 = s.b0 := rfl
@[simp] theorem latch_b1 (w : Word) (s : State) : (latch w s).b1 = s.b1 := rfl
@[simp] theorem latch_rawRh (w : Word) (s : State) : (latch w s).rawRh = s.rawRh := rfl
@[simp] theorem latch_rawT (w : Word) (s : State) : (latch w s).rawT = s.rawT := rfl
@[simp] theorem latch_rh (w : Word) (s : State) : (latch w s).rh = s.rh := rfl
@[simp] theorem latch_tc (w : Word) (s : State) : (latch w s).tc = s.tc := rfl
@[simp] theorem latch_vB0 (w : Word) (s : State) : (latch w s).vB0 = s.vB0 := rfl
@[simp] theorem latch_vB1 (w : Word) (s : State) : (latch w s).vB1 = s.vB1 := rfl
@[simp] theorem latch_vRawRh (w : Word) (s : State) : (latch w s).vRawRh = s.vRawRh := rfl
@[simp] theorem latch_vRawT (w : Word) (s : State) : (latch w s).vRawT = s.vRawT := rfl
@[simp] theorem latch_vRh (w : Word) (s : State) : (latch w s).vRh = s.vRh := rfl
@[simp] theorem latch_vTc (w : Word) (s : State) : (latch w s).vTc = s.vTc := rfl
@[simp] theorem latch_txn (w : Word) (s : State) : (latch w s).txn = s.txn := rfl
@[simp] theorem latch_fault (w : Word) (s : State) : (latch w s).fault = s.fault := rfl
@[simp] theorem latch_fcmd (w : Word) (s : State) : (latch w s).fcmd = s.fcmd := rfl
@[simp] theorem latch_halt (w : Word) (s : State) : (latch w s).halt = s.halt := rfl
@[simp] theorem latch_cur (w : Word) (s : State) : (latch w s).cur = w := rfl
@[simp] theorem latch_busy (w : Word) (s : State) : (latch w s).busy = s.busy := rfl
@[simp] theorem latch_ph (w : Word) (s : State) : (latch w s).ph = 0 := rfl
@[simp] theorem latch_mph (w : Word) (s : State) : (latch w s).mph = 0 := rfl
@[simp] theorem latch_out (w : Word) (s : State) : (latch w s).out = s.out := rfl
@[simp] theorem latch_busLog (w : Word) (s : State) : (latch w s).busLog = s.busLog := rfl
@[simp] theorem latch_elapsedMs (w : Word) (s : State) : (latch w s).elapsedMs = s.elapsedMs := rfl
@[simp] theorem latch_cfg (w : Word) (s : State) : (latch w s).cfg = s.cfg := rfl
@[simp] theorem latch_turns (w : Word) (s : State) : (latch w s).turns = s.turns := rfl
@[simp] theorem latch_rxIn (w : Word) (s : State) : (latch w s).rxIn = s.rxIn := rfl
@[simp] theorem latch_ackIn (w : Word) (s : State) : (latch w s).ackIn = s.ackIn := rfl
@[simp] theorem latch_draws (w : Word) (s : State) : (latch w s).draws = s.draws := rfl
@[simp] theorem latch_rdata (w : Word) (s : State) : (latch w s).rdata = s.rdata := rfl

/-! ### emit -/

@[simp] theorem emit_pCtrl (t : List Byte) (s : State) : (emit t s).pCtrl = s.pCtrl := rfl
@[simp] theorem emit_pStat (t : List Byte) (s : State) : (emit t s).pStat = s.pStat := rfl
@[simp] theorem emit_pData (t : List Byte) (s : State) : (emit t s).pData = s.pData := rfl
@[simp] theorem emit_pDiv (t : List Byte) (s : State) : (emit t s).pDiv = s.pDiv := rfl
@[simp] theorem emit_b0 (t : List Byte) (s : State) : (emit t s).b0 = s.b0 := rfl
@[simp] theorem emit_b1 (t : List Byte) (s : State) : (emit t s).b1 = s.b1 := rfl
@[simp] theorem emit_rawRh (t : List Byte) (s : State) : (emit t s).rawRh = s.rawRh := rfl
@[simp] theorem emit_rawT (t : List Byte) (s : State) : (emit t s).rawT = s.rawT := rfl
@[simp] theorem emit_rh (t : List Byte) (s : State) : (emit t s).rh = s.rh := rfl
@[simp] theorem emit_tc (t : List Byte) (s : State) : (emit t s).tc = s.tc := rfl
@[simp] theorem emit_vB0 (t : List Byte) (s : State) : (emit t s).vB0 = s.vB0 := rfl
@[simp] theorem emit_vB1 (t : List Byte) (s : State) : (emit t s).vB1 = s.vB1 := rfl
@[simp] theorem emit_vRawRh (t : List Byte) (s : State) : (emit t s).vRawRh = s.vRawRh := rfl
@[simp] theorem emit_vRawT (t : List Byte) (s : State) : (emit t s).vRawT = s.vRawT := rfl
@[simp] theorem emit_vRh (t : List Byte) (s : State) : (emit t s).vRh = s.vRh := rfl
@[simp] theorem emit_vTc (t : List Byte) (s : State) : (emit t s).vTc = s.vTc := rfl
@[simp] theorem emit_txn (t : List Byte) (s : State) : (emit t s).txn = s.txn := rfl
@[simp] theorem emit_fault (t : List Byte) (s : State) : (emit t s).fault = s.fault := rfl
@[simp] theorem emit_fcmd (t : List Byte) (s : State) : (emit t s).fcmd = s.fcmd := rfl
@[simp] theorem emit_halt (t : List Byte) (s : State) : (emit t s).halt = s.halt := rfl
@[simp] theorem emit_cur (t : List Byte) (s : State) : (emit t s).cur = s.cur := rfl
@[simp] theorem emit_busy (t : List Byte) (s : State) : (emit t s).busy = s.busy := rfl
@[simp] theorem emit_ph (t : List Byte) (s : State) : (emit t s).ph = s.ph := rfl
@[simp] theorem emit_mph (t : List Byte) (s : State) : (emit t s).mph = s.mph := rfl
@[simp] theorem emit_out (t : List Byte) (s : State) : (emit t s).out = s.out ++ t := rfl
@[simp] theorem emit_busLog (t : List Byte) (s : State) : (emit t s).busLog = s.busLog := rfl
@[simp] theorem emit_elapsedMs (t : List Byte) (s : State) : (emit t s).elapsedMs = s.elapsedMs := rfl
@[simp] theorem emit_cfg (t : List Byte) (s : State) : (emit t s).cfg = s.cfg := rfl
@[simp] theorem emit_turns (t : List Byte) (s : State) : (emit t s).turns = s.turns := rfl
@[simp] theorem emit_rxIn (t : List Byte) (s : State) : (emit t s).rxIn = s.rxIn := rfl
@[simp] theorem emit_ackIn (t : List Byte) (s : State) : (emit t s).ackIn = s.ackIn := rfl
@[simp] theorem emit_draws (t : List Byte) (s : State) : (emit t s).draws = s.draws := rfl
@[simp] theorem emit_rdata (t : List Byte) (s : State) : (emit t s).rdata = s.rdata := rfl

/-! ### clearTrigger -/

@[simp] theorem clearTrigger_pCtrl (t : Trigger) (s : State) : (clearTrigger t s).pCtrl = withBit s.pCtrl t.bit false := rfl
@[simp] theorem clearTrigger_pStat (t : Trigger) (s : State) : (clearTrigger t s).pStat = s.pStat := rfl
@[simp] theorem clearTrigger_pData (t : Trigger) (s : State) : (clearTrigger t s).pData = s.pData := rfl
@[simp] theorem clearTrigger_pDiv (t : Trigger) (s : State) : (clearTrigger t s).pDiv = s.pDiv := rfl
@[simp] theorem clearTrigger_b0 (t : Trigger) (s : State) : (clearTrigger t s).b0 = s.b0 := rfl
@[simp] theorem clearTrigger_b1 (t : Trigger) (s : State) : (clearTrigger t s).b1 = s.b1 := rfl
@[simp] theorem clearTrigger_rawRh (t : Trigger) (s : State) : (clearTrigger t s).rawRh = s.rawRh := rfl
@[simp] theorem clearTrigger_rawT (t : Trigger) (s : State) : (clearTrigger t s).rawT = s.rawT := rfl
@[simp] theorem clearTrigger_rh (t : Trigger) (s : State) : (clearTrigger t s).rh = s.rh := rfl
@[simp] theorem clearTrigger_tc (t : Trigger) (s : State) : (clearTrigger t s).tc = s.tc := rfl
@[simp] theorem clearTrigger_vB0 (t : Trigger) (s : State) : (clearTrigger t s).vB0 = s.vB0 := rfl
@[simp] theorem clearTrigger_vB1 (t : Trigger) (s : State) : (clearTrigger t s).vB1 = s.vB1 := rfl
@[simp] theorem clearTrigger_vRawRh (t : Trigger) (s : State) : (clearTrigger t s).vRawRh = s.vRawRh := rfl
@[simp] theorem clearTrigger_vRawT (t : Trigger) (s : State) : (clearTrigger t s).vRawT = s.vRawT := rfl
@[simp] theorem clearTrigger_vRh (t : Trigger) (s : State) : (clearTrigger t s).vRh = s.vRh := rfl
@[simp] theorem clearTrigger_vTc (t : Trigger) (s : State) : (clearTrigger t s).vTc = s.vTc := rfl
@[simp] theorem clearTrigger_txn (t : Trigger) (s : State) : (clearTrigger t s).txn = s.txn := rfl
@[simp] theorem clearTrigger_fault (t : Trigger) (s : State) : (clearTrigger t s).fault = s.fault := rfl
@[simp] theorem clearTrigger_fcmd (t : Trigger) (s : State) : (clearTrigger t s).fcmd = s.fcmd := rfl
@[simp] theorem clearTrigger_halt (t : Trigger) (s : State) : (clearTrigger t s).halt = s.halt := rfl
@[simp] theorem clearTrigger_cur (t : Trigger) (s : State) : (clearTrigger t s).cur = s.cur := rfl
@[simp] theorem clearTrigger_busy (t : Trigger) (s : State) : (clearTrigger t s).busy = s.busy := rfl
@[simp] theorem clearTrigger_ph (t : Trigger) (s : State) : (clearTrigger t s).ph = s.ph := rfl
@[simp] theorem clearTrigger_mph (t : Trigger) (s : State) : (clearTrigger t s).mph = s.mph := rfl
@[simp] theorem clearTrigger_out (t : Trigger) (s : State) : (clearTrigger t s).out = s.out := rfl
@[simp] theorem clearTrigger_busLog (t : Trigger) (s : State) : (clearTrigger t s).busLog = s.busLog := rfl
@[simp] theorem clearTrigger_elapsedMs (t : Trigger) (s : State) : (clearTrigger t s).elapsedMs = s.elapsedMs := rfl
@[simp] theorem clearTrigger_cfg (t : Trigger) (s : State) : (clearTrigger t s).cfg = s.cfg := rfl
@[simp] theorem clearTrigger_turns (t : Trigger) (s : State) : (clearTrigger t s).turns = s.turns := rfl
@[simp] theorem clearTrigger_rxIn (t : Trigger) (s : State) : (clearTrigger t s).rxIn = s.rxIn := rfl
@[simp] theorem clearTrigger_ackIn (t : Trigger) (s : State) : (clearTrigger t s).ackIn = s.ackIn := rfl
@[simp] theorem clearTrigger_draws (t : Trigger) (s : State) : (clearTrigger t s).draws = s.draws := rfl
@[simp] theorem clearTrigger_rdata (t : Trigger) (s : State) : (clearTrigger t s).rdata = s.rdata := rfl

/-! ### logEvent -/

@[simp] theorem logEvent_pCtrl (e : BusEvent) (s : State) : (logEvent e s).pCtrl = s.pCtrl := rfl
@[simp] theorem logEvent_pStat (e : BusEvent) (s : State) : (logEvent e s).pStat = s.pStat := rfl
@[simp] theorem logEvent_pData (e : BusEvent) (s : State) : (logEvent e s).pData = s.pData := rfl
@[simp] theorem logEvent_pDiv (e : BusEvent) (s : State) : (logEvent e s).pDiv = s.pDiv := rfl
@[simp] theorem logEvent_b0 (e : BusEvent) (s : State) : (logEvent e s).b0 = s.b0 := rfl
@[simp] theorem logEvent_b1 (e : BusEvent) (s : State) : (logEvent e s).b1 = s.b1 := rfl
@[simp] theorem logEvent_rawRh (e : BusEvent) (s : State) : (logEvent e s).rawRh = s.rawRh := rfl
@[simp] theorem logEvent_rawT (e : BusEvent) (s : State) : (logEvent e s).rawT = s.rawT := rfl
@[simp] theorem logEvent_rh (e : BusEvent) (s : State) : (logEvent e s).rh = s.rh := rfl
@[simp] theorem logEvent_tc (e : BusEvent) (s : State) : (logEvent e s).tc = s.tc := rfl
@[simp] theorem logEvent_vB0 (e : BusEvent) (s : State) : (logEvent e s).vB0 = s.vB0 := rfl
@[simp] theorem logEvent_vB1 (e : BusEvent) (s : State) : (logEvent e s).vB1 = s.vB1 := rfl
@[simp] theorem logEvent_vRawRh (e : BusEvent) (s : State) : (logEvent e s).vRawRh = s.vRawRh := rfl
@[simp] theorem logEvent_vRawT (e : BusEvent) (s : State) : (logEvent e s).vRawT = s.vRawT := rfl
@[simp] theorem logEvent_vRh (e : BusEvent) (s : State) : (logEvent e s).vRh = s.vRh := rfl
@[simp] theorem logEvent_vTc (e : BusEvent) (s : State) : (logEvent e s).vTc = s.vTc := rfl
@[simp] theorem logEvent_txn (e : BusEvent) (s : State) : (logEvent e s).txn = s.txn := rfl
@[simp] theorem logEvent_fault (e : BusEvent) (s : State) : (logEvent e s).fault = s.fault := rfl
@[simp] theorem logEvent_fcmd (e : BusEvent) (s : State) : (logEvent e s).fcmd = s.fcmd := rfl
@[simp] theorem logEvent_halt (e : BusEvent) (s : State) : (logEvent e s).halt = s.halt := rfl
@[simp] theorem logEvent_cur (e : BusEvent) (s : State) : (logEvent e s).cur = s.cur := rfl
@[simp] theorem logEvent_busy (e : BusEvent) (s : State) : (logEvent e s).busy = s.busy := rfl
@[simp] theorem logEvent_ph (e : BusEvent) (s : State) : (logEvent e s).ph = s.ph := rfl
@[simp] theorem logEvent_mph (e : BusEvent) (s : State) : (logEvent e s).mph = s.mph := rfl
@[simp] theorem logEvent_out (e : BusEvent) (s : State) : (logEvent e s).out = s.out := rfl
@[simp] theorem logEvent_busLog (e : BusEvent) (s : State) : (logEvent e s).busLog = s.busLog ++ [e] := rfl
@[simp] theorem logEvent_elapsedMs (e : BusEvent) (s : State) : (logEvent e s).elapsedMs = s.elapsedMs := rfl
@[simp] theorem logEvent_cfg (e : BusEvent) (s : State) : (logEvent e s).cfg = s.cfg := rfl
@[simp] theorem logEvent_turns (e : BusEvent) (s : State) : (logEvent e s).turns = s.turns := rfl
@[simp] theorem logEvent_rxIn (e : BusEvent) (s : State) : (logEvent e s).rxIn = s.rxIn := rfl
@[simp] theorem logEvent_ackIn (e : BusEvent) (s : State) : (logEvent e s).ackIn = s.ackIn := rfl
@[simp] theorem logEvent_draws (e : BusEvent) (s : State) : (logEvent e s).draws = s.draws := rfl
@[simp] theorem logEvent_rdata (e : BusEvent) (s : State) : (logEvent e s).rdata = s.rdata := rfl

/-! ### advance: what it leaves alone -/

@[simp] theorem advance_pCtrl (nP nU : Nat) (s : State) : (advance nP nU s).pCtrl = s.pCtrl := by unfold advance; split_ifs <;> rfl
@[simp] theorem advance_pStat (nP nU : Nat) (s : State) : (advance nP nU s).pStat = s.pStat := by unfold advance; split_ifs <;> rfl
@[simp] theorem advance_pData (nP nU : Nat) (s : State) : (advance nP nU s).pData = s.pData := by unfold advance; split_ifs <;> rfl
@[simp] theorem advance_pDiv (nP nU : Nat) (s : State) : (advance nP nU s).pDiv = s.pDiv := by unfold advance; split_ifs <;> rfl
@[simp] theorem advance_b0 (nP nU : Nat) (s : State) : (advance nP nU s).b0 = s.b0 := by unfold advance; split_ifs <;> rfl
@[simp] theorem advance_b1 (nP nU : Nat) (s : State) : (advance nP nU s).b1 = s.b1 := by unfold advance; split_ifs <;> rfl
@[simp] theorem advance_rawRh (nP nU : Nat) (s : State) : (advance nP nU s).rawRh = s.rawRh := by unfold advance; split_ifs <;> rfl
@[simp] theorem advance_rawT (nP nU : Nat) (s : State) : (advance nP nU s).rawT = s.rawT := by unfold advance; split_ifs <;> rfl
@[simp] theorem advance_rh (nP nU : Nat) (s : State) : (advance nP nU s).rh = s.rh := by unfold advance; split_ifs <;> rfl
@[simp] theorem advance_tc (nP nU : Nat) (s : State) : (advance nP nU s).tc = s.tc := by unfold advance; split_ifs <;> rfl
@[simp] theorem advance_vB0 (nP nU : Nat) (s : State) : (advance nP nU s).vB0 = s.vB0 := by unfold advance; split_ifs <;> rfl
@[simp] theorem advance_vB1 (nP nU : Nat) (s : State) : (advance nP nU s).vB1 = s.vB1 := by unfold advance; split_ifs <;> rfl
@[simp] theorem advance_vRawRh (nP nU : Nat) (s : State) : (advance nP nU s).vRawRh = s.vRawRh := by unfold advance; split_ifs <;> rfl
@[simp] theorem advance_vRawT (nP nU : Nat) (s : State) : (advance nP nU s).vRawT = s.vRawT := by unfold advance; split_ifs <;> rfl
@[simp] theorem advance_vRh (nP nU : Nat) (s : State) : (advance nP nU s).vRh = s.vRh := by unfold advance; split_ifs <;> rfl
@[simp] theorem advance_vTc (nP nU : Nat) (s : State) : (advance nP nU s).vTc = s.vTc := by unfold advance; split_ifs <;> rfl
@[simp] theorem advance_txn (nP nU : Nat) (s : State) : (advance nP nU s).txn = s.txn := by unfold advance; split_ifs <;> rfl
@[simp] theorem advance_fault (nP nU : Nat) (s : State) : (advance nP nU s).fault = s.fault := by unfold advance; split_ifs <;> rfl
@[simp] theorem advance_fcmd (nP nU : Nat) (s : State) : (advance nP nU s).fcmd = s.fcmd := by unfold advance; split_ifs <;> rfl
@[simp] theorem advance_halt (nP nU : Nat) (s : State) : (advance nP nU s).halt = s.halt := by unfold advance; split_ifs <;> rfl
@[simp] theorem advance_out (nP nU : Nat) (s : State) : (advance nP nU s).out = s.out := by unfold advance; split_ifs <;> rfl
@[simp] theorem advance_busLog (nP nU : Nat) (s : State) : (advance nP nU s).busLog = s.busLog := by unfold advance; split_ifs <;> rfl
@[simp] theorem advance_elapsedMs (nP nU : Nat) (s : State) : (advance nP nU s).elapsedMs = s.elapsedMs := by unfold advance; split_ifs <;> rfl
@[simp] theorem advance_cfg (nP nU : Nat) (s : State) : (advance nP nU s).cfg = s.cfg := by unfold advance; split_ifs <;> rfl
@[simp] theorem advance_turns (nP nU : Nat) (s : State) : (advance nP nU s).turns = s.turns := by unfold advance; split_ifs <;> rfl
@[simp] theorem advance_rxIn (nP nU : Nat) (s : State) : (advance nP nU s).rxIn = s.rxIn := by unfold advance; split_ifs <;> rfl
@[simp] theorem advance_ackIn (nP nU : Nat) (s : State) : (advance nP nU s).ackIn = s.ackIn := by unfold advance; split_ifs <;> rfl
@[simp] theorem advance_draws (nP nU : Nat) (s : State) : (advance nP nU s).draws = s.draws := by unfold advance; split_ifs <;> rfl
@[simp] theorem advance_rdata (nP nU : Nat) (s : State) : (advance nP nU s).rdata = s.rdata := by unfold advance; split_ifs <;> rfl

/-! ### writeByteReg: what it leaves alone -/

@[simp] theorem writeByteReg_pCtrl (d : Bool) (v : Byte) (s : State) : (writeByteReg d v s).pCtrl = s.pCtrl := by cases d <;> rfl
@[simp] theorem writeByteReg_pStat (d : Bool) (v : Byte) (s : State) : (writeByteReg d v s).pStat = s.pStat := by cases d <;> rfl
@[simp] theorem writeByteReg_pData (d : Bool) (v : Byte) (s : State) : (writeByteReg d v s).pData = s.pData := by cases d <;> rfl
@[simp] theorem writeByteReg_pDiv (d : Bool) (v : Byte) (s : State) : (writeByteReg d v s).pDiv = s.pDiv := by cases d <;> rfl
@[simp] theorem writeByteReg_rawRh (d : Bool) (v : Byte) (s : State) : (writeByteReg d v s).rawRh = s.rawRh := by cases d <;> rfl
@[simp] theorem writeByteReg_rawT (d : Bool) (v : Byte) (s : State) : (writeByteReg d v s).rawT = s.rawT := by cases d <;> rfl
@[simp] theorem writeByteReg_rh (d : Bool) (v : Byte) (s : State) : (writeByteReg d v s).rh = s.rh := by cases d <;> rfl
@[simp] theorem writeByteReg_tc (d : Bool) (v : Byte) (s : State) : (writeByteReg d v s).tc = s.tc := by cases d <;> rfl
@[simp] theorem writeByteReg_vRawRh (d : Bool) (v : Byte) (s : State) : (writeByteReg d v s).vRawRh = s.vRawRh := by cases d <;> rfl
@[simp] theorem writeByteReg_vRawT (d : Bool) (v : Byte) (s : State) : (writeByteReg d v s).vRawT = s.vRawT := by cases d <;> rfl
@[simp] theorem writeByteReg_vRh (d : Bool) (v : Byte) (s : State) : (writeByteReg d v s).vRh = s.vRh := by cases d <;> rfl
@[simp] theorem writeByteReg_vTc (d : Bool) (v : Byte) (s : State) : (writeByteReg d v s).vTc = s.vTc := by cases d <;> rfl
@[simp] theorem writeByteReg_txn (d : Bool) (v : Byte) (s : State) : (writeByteReg d v s).txn = s.txn := by cases d <;> rfl
@[simp] theorem writeByteReg_fault (d : Bool) (v : Byte) (s : State) : (writeByteReg d v s).fault = s.fault := by cases d <;> rfl
@[simp] theorem writeByteReg_fcmd (d : Bool) (v : Byte) (s : State) : (writeByteReg d v s).fcmd = s.fcmd := by cases d <;> rfl
@[simp] theorem writeByteReg_halt (d : Bool) (v : Byte) (s : State) : (writeByteReg d v s).halt = s.halt := by cases d <;> rfl
@[simp] theorem writeByteReg_cur (d : Bool) (v : Byte) (s : State) : (writeByteReg d v s).cur = s.cur := by cases d <;> rfl
@[simp] theorem writeByteReg_busy (d : Bool) (v : Byte) (s : State) : (writeByteReg d v s).busy = s.busy := by cases d <;> rfl
@[simp] theorem writeByteReg_ph (d : Bool) (v : Byte) (s : State) : (writeByteReg d v s).ph = s.ph := by cases d <;> rfl
@[simp] theorem writeByteReg_mph (d : Bool) (v : Byte) (s : State) : (writeByteReg d v s).mph = s.mph := by cases d <;> rfl
@[simp] theorem writeByteReg_out (d : Bool) (v : Byte) (s : State) : (writeByteReg d v s).out = s.out := by cases d <;> rfl
@[simp] theorem writeByteReg_busLog (d : Bool) (v : Byte) (s : State) : (writeByteReg d v s).busLog = s.busLog := by cases d <;> rfl
@[simp] theorem writeByteReg_elapsedMs (d : Bool) (v : Byte) (s : State) : (writeByteReg d v s).elapsedMs = s.elapsedMs := by cases d <;> rfl
@[simp] theorem writeByteReg_cfg (d : Bool) (v : Byte) (s : State) : (writeByteReg d v s).cfg = s.cfg := by cases d <;> rfl
@[simp] theorem writeByteReg_turns (d : Bool) (v : Byte) (s : State) : (writeByteReg d v s).turns = s.turns := by cases d <;> rfl
@[simp] theorem writeByteReg_rxIn (d : Bool) (v : Byte) (s : State) : (writeByteReg d v s).rxIn = s.rxIn := by cases d <;> rfl
@[simp] theorem writeByteReg_ackIn (d : Bool) (v : Byte) (s : State) : (writeByteReg d v s).ackIn = s.ackIn := by cases d <;> rfl
@[simp] theorem writeByteReg_draws (d : Bool) (v : Byte) (s : State) : (writeByteReg d v s).draws = s.draws := by cases d <;> rfl
@[simp] theorem writeByteReg_rdata (d : Bool) (v : Byte) (s : State) : (writeByteReg d v s).rdata = s.rdata := by cases d <;> rfl

/-! ### clearAtIssue: what it leaves alone -/

@[simp] theorem clearAtIssue_pCtrl (i : Instr) (s : State) : (clearAtIssue i s).pCtrl = s.pCtrl := by cases i <;> rfl
@[simp] theorem clearAtIssue_pStat (i : Instr) (s : State) : (clearAtIssue i s).pStat = s.pStat := by cases i <;> rfl
@[simp] theorem clearAtIssue_pData (i : Instr) (s : State) : (clearAtIssue i s).pData = s.pData := by cases i <;> rfl
@[simp] theorem clearAtIssue_pDiv (i : Instr) (s : State) : (clearAtIssue i s).pDiv = s.pDiv := by cases i <;> rfl
@[simp] theorem clearAtIssue_b0 (i : Instr) (s : State) : (clearAtIssue i s).b0 = s.b0 := by cases i <;> rfl
@[simp] theorem clearAtIssue_b1 (i : Instr) (s : State) : (clearAtIssue i s).b1 = s.b1 := by cases i <;> rfl
@[simp] theorem clearAtIssue_rawRh (i : Instr) (s : State) : (clearAtIssue i s).rawRh = s.rawRh := by cases i <;> rfl
@[simp] theorem clearAtIssue_rawT (i : Instr) (s : State) : (clearAtIssue i s).rawT = s.rawT := by cases i <;> rfl
@[simp] theorem clearAtIssue_rh (i : Instr) (s : State) : (clearAtIssue i s).rh = s.rh := by cases i <;> rfl
@[simp] theorem clearAtIssue_tc (i : Instr) (s : State) : (clearAtIssue i s).tc = s.tc := by cases i <;> rfl
@[simp] theorem clearAtIssue_vB0 (i : Instr) (s : State) : (clearAtIssue i s).vB0 = s.vB0 := by cases i <;> rfl
@[simp] theorem clearAtIssue_vB1 (i : Instr) (s : State) : (clearAtIssue i s).vB1 = s.vB1 := by cases i <;> rfl
@[simp] theorem clearAtIssue_txn (i : Instr) (s : State) : (clearAtIssue i s).txn = s.txn := by cases i <;> rfl
@[simp] theorem clearAtIssue_fault (i : Instr) (s : State) : (clearAtIssue i s).fault = s.fault := by cases i <;> rfl
@[simp] theorem clearAtIssue_fcmd (i : Instr) (s : State) : (clearAtIssue i s).fcmd = s.fcmd := by cases i <;> rfl
@[simp] theorem clearAtIssue_halt (i : Instr) (s : State) : (clearAtIssue i s).halt = s.halt := by cases i <;> rfl
@[simp] theorem clearAtIssue_cur (i : Instr) (s : State) : (clearAtIssue i s).cur = s.cur := by cases i <;> rfl
@[simp] theorem clearAtIssue_busy (i : Instr) (s : State) : (clearAtIssue i s).busy = s.busy := by cases i <;> rfl
@[simp] theorem clearAtIssue_ph (i : Instr) (s : State) : (clearAtIssue i s).ph = s.ph := by cases i <;> rfl
@[simp] theorem clearAtIssue_mph (i : Instr) (s : State) : (clearAtIssue i s).mph = s.mph := by cases i <;> rfl
@[simp] theorem clearAtIssue_out (i : Instr) (s : State) : (clearAtIssue i s).out = s.out := by cases i <;> rfl
@[simp] theorem clearAtIssue_busLog (i : Instr) (s : State) : (clearAtIssue i s).busLog = s.busLog := by cases i <;> rfl
@[simp] theorem clearAtIssue_elapsedMs (i : Instr) (s : State) : (clearAtIssue i s).elapsedMs = s.elapsedMs := by cases i <;> rfl
@[simp] theorem clearAtIssue_cfg (i : Instr) (s : State) : (clearAtIssue i s).cfg = s.cfg := by cases i <;> rfl
@[simp] theorem clearAtIssue_turns (i : Instr) (s : State) : (clearAtIssue i s).turns = s.turns := by cases i <;> rfl
@[simp] theorem clearAtIssue_rxIn (i : Instr) (s : State) : (clearAtIssue i s).rxIn = s.rxIn := by cases i <;> rfl
@[simp] theorem clearAtIssue_ackIn (i : Instr) (s : State) : (clearAtIssue i s).ackIn = s.ackIn := by cases i <;> rfl
@[simp] theorem clearAtIssue_draws (i : Instr) (s : State) : (clearAtIssue i s).draws = s.draws := by cases i <;> rfl
@[simp] theorem clearAtIssue_rdata (i : Instr) (s : State) : (clearAtIssue i s).rdata = s.rdata := by cases i <;> rfl

/-! ### ckClears: what it leaves alone -/

@[simp] theorem ckClears_pCtrl (c : BusCmd) (s : State) : (ckClears c s).pCtrl = s.pCtrl := by cases c <;> rfl
@[simp] theorem ckClears_pStat (c : BusCmd) (s : State) : (ckClears c s).pStat = s.pStat := by cases c <;> rfl
@[simp] theorem ckClears_pData (c : BusCmd) (s : State) : (ckClears c s).pData = s.pData := by cases c <;> rfl
@[simp] theorem ckClears_pDiv (c : BusCmd) (s : State) : (ckClears c s).pDiv = s.pDiv := by cases c <;> rfl
@[simp] theorem ckClears_b0 (c : BusCmd) (s : State) : (ckClears c s).b0 = s.b0 := by cases c <;> rfl
@[simp] theorem ckClears_b1 (c : BusCmd) (s : State) : (ckClears c s).b1 = s.b1 := by cases c <;> rfl
@[simp] theorem ckClears_rawRh (c : BusCmd) (s : State) : (ckClears c s).rawRh = s.rawRh := by cases c <;> rfl
@[simp] theorem ckClears_rawT (c : BusCmd) (s : State) : (ckClears c s).rawT = s.rawT := by cases c <;> rfl
@[simp] theorem ckClears_rh (c : BusCmd) (s : State) : (ckClears c s).rh = s.rh := by cases c <;> rfl
@[simp] theorem ckClears_tc (c : BusCmd) (s : State) : (ckClears c s).tc = s.tc := by cases c <;> rfl
@[simp] theorem ckClears_vRawRh (c : BusCmd) (s : State) : (ckClears c s).vRawRh = s.vRawRh := by cases c <;> rfl
@[simp] theorem ckClears_vRawT (c : BusCmd) (s : State) : (ckClears c s).vRawT = s.vRawT := by cases c <;> rfl
@[simp] theorem ckClears_vRh (c : BusCmd) (s : State) : (ckClears c s).vRh = s.vRh := by cases c <;> rfl
@[simp] theorem ckClears_vTc (c : BusCmd) (s : State) : (ckClears c s).vTc = s.vTc := by cases c <;> rfl
@[simp] theorem ckClears_txn (c : BusCmd) (s : State) : (ckClears c s).txn = s.txn := by cases c <;> rfl
@[simp] theorem ckClears_fault (c : BusCmd) (s : State) : (ckClears c s).fault = s.fault := by cases c <;> rfl
@[simp] theorem ckClears_fcmd (c : BusCmd) (s : State) : (ckClears c s).fcmd = s.fcmd := by cases c <;> rfl
@[simp] theorem ckClears_halt (c : BusCmd) (s : State) : (ckClears c s).halt = s.halt := by cases c <;> rfl
@[simp] theorem ckClears_cur (c : BusCmd) (s : State) : (ckClears c s).cur = s.cur := by cases c <;> rfl
@[simp] theorem ckClears_busy (c : BusCmd) (s : State) : (ckClears c s).busy = s.busy := by cases c <;> rfl
@[simp] theorem ckClears_ph (c : BusCmd) (s : State) : (ckClears c s).ph = s.ph := by cases c <;> rfl
@[simp] theorem ckClears_mph (c : BusCmd) (s : State) : (ckClears c s).mph = s.mph := by cases c <;> rfl
@[simp] theorem ckClears_out (c : BusCmd) (s : State) : (ckClears c s).out = s.out := by cases c <;> rfl
@[simp] theorem ckClears_busLog (c : BusCmd) (s : State) : (ckClears c s).busLog = s.busLog := by cases c <;> rfl
@[simp] theorem ckClears_elapsedMs (c : BusCmd) (s : State) : (ckClears c s).elapsedMs = s.elapsedMs := by cases c <;> rfl
@[simp] theorem ckClears_cfg (c : BusCmd) (s : State) : (ckClears c s).cfg = s.cfg := by cases c <;> rfl
@[simp] theorem ckClears_turns (c : BusCmd) (s : State) : (ckClears c s).turns = s.turns := by cases c <;> rfl
@[simp] theorem ckClears_rxIn (c : BusCmd) (s : State) : (ckClears c s).rxIn = s.rxIn := by cases c <;> rfl
@[simp] theorem ckClears_ackIn (c : BusCmd) (s : State) : (ckClears c s).ackIn = s.ackIn := by cases c <;> rfl
@[simp] theorem ckClears_draws (c : BusCmd) (s : State) : (ckClears c s).draws = s.draws := by cases c <;> rfl
@[simp] theorem ckClears_rdata (c : BusCmd) (s : State) : (ckClears c s).rdata = s.rdata := by cases c <;> rfl

/-! ### writeRaw: what it leaves alone -/

@[simp] theorem writeRaw_pCtrl (r : Reading) (v : BitVec 14) (s : State) : (writeRaw r v s).pCtrl = s.pCtrl := by cases r <;> rfl
@[simp] theorem writeRaw_pStat (r : Reading) (v : BitVec 14) (s : State) : (writeRaw r v s).pStat = s.pStat := by cases r <;> rfl
@[simp] theorem writeRaw_pData (r : Reading) (v : BitVec 14) (s : State) : (writeRaw r v s).pData = s.pData := by cases r <;> rfl
@[simp] theorem writeRaw_pDiv (r : Reading) (v : BitVec 14) (s : State) : (writeRaw r v s).pDiv = s.pDiv := by cases r <;> rfl
@[simp] theorem writeRaw_b0 (r : Reading) (v : BitVec 14) (s : State) : (writeRaw r v s).b0 = s.b0 := by cases r <;> rfl
@[simp] theorem writeRaw_b1 (r : Reading) (v : BitVec 14) (s : State) : (writeRaw r v s).b1 = s.b1 := by cases r <;> rfl
@[simp] theorem writeRaw_rh (r : Reading) (v : BitVec 14) (s : State) : (writeRaw r v s).rh = s.rh := by cases r <;> rfl
@[simp] theorem writeRaw_tc (r : Reading) (v : BitVec 14) (s : State) : (writeRaw r v s).tc = s.tc := by cases r <;> rfl
@[simp] theorem writeRaw_vB0 (r : Reading) (v : BitVec 14) (s : State) : (writeRaw r v s).vB0 = s.vB0 := by cases r <;> rfl
@[simp] theorem writeRaw_vB1 (r : Reading) (v : BitVec 14) (s : State) : (writeRaw r v s).vB1 = s.vB1 := by cases r <;> rfl
@[simp] theorem writeRaw_vRh (r : Reading) (v : BitVec 14) (s : State) : (writeRaw r v s).vRh = s.vRh := by cases r <;> rfl
@[simp] theorem writeRaw_vTc (r : Reading) (v : BitVec 14) (s : State) : (writeRaw r v s).vTc = s.vTc := by cases r <;> rfl
@[simp] theorem writeRaw_txn (r : Reading) (v : BitVec 14) (s : State) : (writeRaw r v s).txn = s.txn := by cases r <;> rfl
@[simp] theorem writeRaw_fault (r : Reading) (v : BitVec 14) (s : State) : (writeRaw r v s).fault = s.fault := by cases r <;> rfl
@[simp] theorem writeRaw_fcmd (r : Reading) (v : BitVec 14) (s : State) : (writeRaw r v s).fcmd = s.fcmd := by cases r <;> rfl
@[simp] theorem writeRaw_halt (r : Reading) (v : BitVec 14) (s : State) : (writeRaw r v s).halt = s.halt := by cases r <;> rfl
@[simp] theorem writeRaw_cur (r : Reading) (v : BitVec 14) (s : State) : (writeRaw r v s).cur = s.cur := by cases r <;> rfl
@[simp] theorem writeRaw_busy (r : Reading) (v : BitVec 14) (s : State) : (writeRaw r v s).busy = s.busy := by cases r <;> rfl
@[simp] theorem writeRaw_ph (r : Reading) (v : BitVec 14) (s : State) : (writeRaw r v s).ph = s.ph := by cases r <;> rfl
@[simp] theorem writeRaw_mph (r : Reading) (v : BitVec 14) (s : State) : (writeRaw r v s).mph = s.mph := by cases r <;> rfl
@[simp] theorem writeRaw_out (r : Reading) (v : BitVec 14) (s : State) : (writeRaw r v s).out = s.out := by cases r <;> rfl
@[simp] theorem writeRaw_busLog (r : Reading) (v : BitVec 14) (s : State) : (writeRaw r v s).busLog = s.busLog := by cases r <;> rfl
@[simp] theorem writeRaw_elapsedMs (r : Reading) (v : BitVec 14) (s : State) : (writeRaw r v s).elapsedMs = s.elapsedMs := by cases r <;> rfl
@[simp] theorem writeRaw_cfg (r : Reading) (v : BitVec 14) (s : State) : (writeRaw r v s).cfg = s.cfg := by cases r <;> rfl
@[simp] theorem writeRaw_turns (r : Reading) (v : BitVec 14) (s : State) : (writeRaw r v s).turns = s.turns := by cases r <;> rfl
@[simp] theorem writeRaw_rxIn (r : Reading) (v : BitVec 14) (s : State) : (writeRaw r v s).rxIn = s.rxIn := by cases r <;> rfl
@[simp] theorem writeRaw_ackIn (r : Reading) (v : BitVec 14) (s : State) : (writeRaw r v s).ackIn = s.ackIn := by cases r <;> rfl
@[simp] theorem writeRaw_draws (r : Reading) (v : BitVec 14) (s : State) : (writeRaw r v s).draws = s.draws := by cases r <;> rfl
@[simp] theorem writeRaw_rdata (r : Reading) (v : BitVec 14) (s : State) : (writeRaw r v s).rdata = s.rdata := by cases r <;> rfl

/-! ### writeDecoded: what it leaves alone -/

@[simp] theorem writeDecoded_pCtrl (r : Reading) (s : State) : (writeDecoded r s).pCtrl = s.pCtrl := by cases r <;> rfl
@[simp] theorem writeDecoded_pStat (r : Reading) (s : State) : (writeDecoded r s).pStat = s.pStat := by cases r <;> rfl
@[simp] theorem writeDecoded_pData (r : Reading) (s : State) : (writeDecoded r s).pData = s.pData := by cases r <;> rfl
@[simp] theorem writeDecoded_pDiv (r : Reading) (s : State) : (writeDecoded r s).pDiv = s.pDiv := by cases r <;> rfl
@[simp] theorem writeDecoded_b0 (r : Reading) (s : State) : (writeDecoded r s).b0 = s.b0 := by cases r <;> rfl
@[simp] theorem writeDecoded_b1 (r : Reading) (s : State) : (writeDecoded r s).b1 = s.b1 := by cases r <;> rfl
@[simp] theorem writeDecoded_rawRh (r : Reading) (s : State) : (writeDecoded r s).rawRh = s.rawRh := by cases r <;> rfl
@[simp] theorem writeDecoded_rawT (r : Reading) (s : State) : (writeDecoded r s).rawT = s.rawT := by cases r <;> rfl
@[simp] theorem writeDecoded_vB0 (r : Reading) (s : State) : (writeDecoded r s).vB0 = s.vB0 := by cases r <;> rfl
@[simp] theorem writeDecoded_vB1 (r : Reading) (s : State) : (writeDecoded r s).vB1 = s.vB1 := by cases r <;> rfl
@[simp] theorem writeDecoded_vRawRh (r : Reading) (s : State) : (writeDecoded r s).vRawRh = s.vRawRh := by cases r <;> rfl
@[simp] theorem writeDecoded_vRawT (r : Reading) (s : State) : (writeDecoded r s).vRawT = s.vRawT := by cases r <;> rfl
@[simp] theorem writeDecoded_txn (r : Reading) (s : State) : (writeDecoded r s).txn = s.txn := by cases r <;> rfl
@[simp] theorem writeDecoded_fault (r : Reading) (s : State) : (writeDecoded r s).fault = s.fault := by cases r <;> rfl
@[simp] theorem writeDecoded_fcmd (r : Reading) (s : State) : (writeDecoded r s).fcmd = s.fcmd := by cases r <;> rfl
@[simp] theorem writeDecoded_halt (r : Reading) (s : State) : (writeDecoded r s).halt = s.halt := by cases r <;> rfl
@[simp] theorem writeDecoded_cur (r : Reading) (s : State) : (writeDecoded r s).cur = s.cur := by cases r <;> rfl
@[simp] theorem writeDecoded_busy (r : Reading) (s : State) : (writeDecoded r s).busy = s.busy := by cases r <;> rfl
@[simp] theorem writeDecoded_ph (r : Reading) (s : State) : (writeDecoded r s).ph = s.ph := by cases r <;> rfl
@[simp] theorem writeDecoded_mph (r : Reading) (s : State) : (writeDecoded r s).mph = s.mph := by cases r <;> rfl
@[simp] theorem writeDecoded_out (r : Reading) (s : State) : (writeDecoded r s).out = s.out := by cases r <;> rfl
@[simp] theorem writeDecoded_busLog (r : Reading) (s : State) : (writeDecoded r s).busLog = s.busLog := by cases r <;> rfl
@[simp] theorem writeDecoded_elapsedMs (r : Reading) (s : State) : (writeDecoded r s).elapsedMs = s.elapsedMs := by cases r <;> rfl
@[simp] theorem writeDecoded_cfg (r : Reading) (s : State) : (writeDecoded r s).cfg = s.cfg := by cases r <;> rfl
@[simp] theorem writeDecoded_turns (r : Reading) (s : State) : (writeDecoded r s).turns = s.turns := by cases r <;> rfl
@[simp] theorem writeDecoded_rxIn (r : Reading) (s : State) : (writeDecoded r s).rxIn = s.rxIn := by cases r <;> rfl
@[simp] theorem writeDecoded_ackIn (r : Reading) (s : State) : (writeDecoded r s).ackIn = s.ackIn := by cases r <;> rfl
@[simp] theorem writeDecoded_draws (r : Reading) (s : State) : (writeDecoded r s).draws = s.draws := by cases r <;> rfl
@[simp] theorem writeDecoded_rdata (r : Reading) (s : State) : (writeDecoded r s).rdata = s.rdata := by cases r <;> rfl

/-! ### afterDrawByte: what it leaves alone -/

@[simp] theorem afterDrawByte_pCtrl (s : State) : (afterDrawByte s).pCtrl = s.pCtrl := by unfold afterDrawByte; split <;> rfl
@[simp] theorem afterDrawByte_pStat (s : State) : (afterDrawByte s).pStat = s.pStat := by unfold afterDrawByte; split <;> rfl
@[simp] theorem afterDrawByte_pData (s : State) : (afterDrawByte s).pData = s.pData := by unfold afterDrawByte; split <;> rfl
@[simp] theorem afterDrawByte_pDiv (s : State) : (afterDrawByte s).pDiv = s.pDiv := by unfold afterDrawByte; split <;> rfl
@[simp] theorem afterDrawByte_b0 (s : State) : (afterDrawByte s).b0 = s.b0 := by unfold afterDrawByte; split <;> rfl
@[simp] theorem afterDrawByte_b1 (s : State) : (afterDrawByte s).b1 = s.b1 := by unfold afterDrawByte; split <;> rfl
@[simp] theorem afterDrawByte_rawRh (s : State) : (afterDrawByte s).rawRh = s.rawRh := by unfold afterDrawByte; split <;> rfl
@[simp] theorem afterDrawByte_rawT (s : State) : (afterDrawByte s).rawT = s.rawT := by unfold afterDrawByte; split <;> rfl
@[simp] theorem afterDrawByte_rh (s : State) : (afterDrawByte s).rh = s.rh := by unfold afterDrawByte; split <;> rfl
@[simp] theorem afterDrawByte_tc (s : State) : (afterDrawByte s).tc = s.tc := by unfold afterDrawByte; split <;> rfl
@[simp] theorem afterDrawByte_vB0 (s : State) : (afterDrawByte s).vB0 = s.vB0 := by unfold afterDrawByte; split <;> rfl
@[simp] theorem afterDrawByte_vB1 (s : State) : (afterDrawByte s).vB1 = s.vB1 := by unfold afterDrawByte; split <;> rfl
@[simp] theorem afterDrawByte_vRawRh (s : State) : (afterDrawByte s).vRawRh = s.vRawRh := by unfold afterDrawByte; split <;> rfl
@[simp] theorem afterDrawByte_vRawT (s : State) : (afterDrawByte s).vRawT = s.vRawT := by unfold afterDrawByte; split <;> rfl
@[simp] theorem afterDrawByte_vRh (s : State) : (afterDrawByte s).vRh = s.vRh := by unfold afterDrawByte; split <;> rfl
@[simp] theorem afterDrawByte_vTc (s : State) : (afterDrawByte s).vTc = s.vTc := by unfold afterDrawByte; split <;> rfl
@[simp] theorem afterDrawByte_txn (s : State) : (afterDrawByte s).txn = s.txn := by unfold afterDrawByte; split <;> rfl
@[simp] theorem afterDrawByte_fault (s : State) : (afterDrawByte s).fault = s.fault := by unfold afterDrawByte; split <;> rfl
@[simp] theorem afterDrawByte_fcmd (s : State) : (afterDrawByte s).fcmd = s.fcmd := by unfold afterDrawByte; split <;> rfl
@[simp] theorem afterDrawByte_halt (s : State) : (afterDrawByte s).halt = s.halt := by unfold afterDrawByte; split <;> rfl
@[simp] theorem afterDrawByte_cur (s : State) : (afterDrawByte s).cur = s.cur := by unfold afterDrawByte; split <;> rfl
@[simp] theorem afterDrawByte_busy (s : State) : (afterDrawByte s).busy = s.busy := by unfold afterDrawByte; split <;> rfl
@[simp] theorem afterDrawByte_ph (s : State) : (afterDrawByte s).ph = s.ph := by unfold afterDrawByte; split <;> rfl
@[simp] theorem afterDrawByte_mph (s : State) : (afterDrawByte s).mph = s.mph := by unfold afterDrawByte; split <;> rfl
@[simp] theorem afterDrawByte_out (s : State) : (afterDrawByte s).out = s.out := by unfold afterDrawByte; split <;> rfl
@[simp] theorem afterDrawByte_busLog (s : State) : (afterDrawByte s).busLog = s.busLog := by unfold afterDrawByte; split <;> rfl
@[simp] theorem afterDrawByte_elapsedMs (s : State) : (afterDrawByte s).elapsedMs = s.elapsedMs := by unfold afterDrawByte; split <;> rfl
@[simp] theorem afterDrawByte_cfg (s : State) : (afterDrawByte s).cfg = s.cfg := by unfold afterDrawByte; split <;> rfl
@[simp] theorem afterDrawByte_turns (s : State) : (afterDrawByte s).turns = s.turns := by unfold afterDrawByte; split <;> rfl
@[simp] theorem afterDrawByte_ackIn (s : State) : (afterDrawByte s).ackIn = s.ackIn := by unfold afterDrawByte; split <;> rfl
@[simp] theorem afterDrawByte_rdata (s : State) : (afterDrawByte s).rdata = s.rdata := by unfold afterDrawByte; split <;> rfl

/-! ### afterDrawBit: what it leaves alone -/

@[simp] theorem afterDrawBit_pCtrl (s : State) : (afterDrawBit s).pCtrl = s.pCtrl := by unfold afterDrawBit; split <;> rfl
@[simp] theorem afterDrawBit_pStat (s : State) : (afterDrawBit s).pStat = s.pStat := by unfold afterDrawBit; split <;> rfl
@[simp] theorem afterDrawBit_pData (s : State) : (afterDrawBit s).pData = s.pData := by unfold afterDrawBit; split <;> rfl
@[simp] theorem afterDrawBit_pDiv (s : State) : (afterDrawBit s).pDiv = s.pDiv := by unfold afterDrawBit; split <;> rfl
@[simp] theorem afterDrawBit_b0 (s : State) : (afterDrawBit s).b0 = s.b0 := by unfold afterDrawBit; split <;> rfl
@[simp] theorem afterDrawBit_b1 (s : State) : (afterDrawBit s).b1 = s.b1 := by unfold afterDrawBit; split <;> rfl
@[simp] theorem afterDrawBit_rawRh (s : State) : (afterDrawBit s).rawRh = s.rawRh := by unfold afterDrawBit; split <;> rfl
@[simp] theorem afterDrawBit_rawT (s : State) : (afterDrawBit s).rawT = s.rawT := by unfold afterDrawBit; split <;> rfl
@[simp] theorem afterDrawBit_rh (s : State) : (afterDrawBit s).rh = s.rh := by unfold afterDrawBit; split <;> rfl
@[simp] theorem afterDrawBit_tc (s : State) : (afterDrawBit s).tc = s.tc := by unfold afterDrawBit; split <;> rfl
@[simp] theorem afterDrawBit_vB0 (s : State) : (afterDrawBit s).vB0 = s.vB0 := by unfold afterDrawBit; split <;> rfl
@[simp] theorem afterDrawBit_vB1 (s : State) : (afterDrawBit s).vB1 = s.vB1 := by unfold afterDrawBit; split <;> rfl
@[simp] theorem afterDrawBit_vRawRh (s : State) : (afterDrawBit s).vRawRh = s.vRawRh := by unfold afterDrawBit; split <;> rfl
@[simp] theorem afterDrawBit_vRawT (s : State) : (afterDrawBit s).vRawT = s.vRawT := by unfold afterDrawBit; split <;> rfl
@[simp] theorem afterDrawBit_vRh (s : State) : (afterDrawBit s).vRh = s.vRh := by unfold afterDrawBit; split <;> rfl
@[simp] theorem afterDrawBit_vTc (s : State) : (afterDrawBit s).vTc = s.vTc := by unfold afterDrawBit; split <;> rfl
@[simp] theorem afterDrawBit_txn (s : State) : (afterDrawBit s).txn = s.txn := by unfold afterDrawBit; split <;> rfl
@[simp] theorem afterDrawBit_fault (s : State) : (afterDrawBit s).fault = s.fault := by unfold afterDrawBit; split <;> rfl
@[simp] theorem afterDrawBit_fcmd (s : State) : (afterDrawBit s).fcmd = s.fcmd := by unfold afterDrawBit; split <;> rfl
@[simp] theorem afterDrawBit_halt (s : State) : (afterDrawBit s).halt = s.halt := by unfold afterDrawBit; split <;> rfl
@[simp] theorem afterDrawBit_cur (s : State) : (afterDrawBit s).cur = s.cur := by unfold afterDrawBit; split <;> rfl
@[simp] theorem afterDrawBit_busy (s : State) : (afterDrawBit s).busy = s.busy := by unfold afterDrawBit; split <;> rfl
@[simp] theorem afterDrawBit_ph (s : State) : (afterDrawBit s).ph = s.ph := by unfold afterDrawBit; split <;> rfl
@[simp] theorem afterDrawBit_mph (s : State) : (afterDrawBit s).mph = s.mph := by unfold afterDrawBit; split <;> rfl
@[simp] theorem afterDrawBit_out (s : State) : (afterDrawBit s).out = s.out := by unfold afterDrawBit; split <;> rfl
@[simp] theorem afterDrawBit_busLog (s : State) : (afterDrawBit s).busLog = s.busLog := by unfold afterDrawBit; split <;> rfl
@[simp] theorem afterDrawBit_elapsedMs (s : State) : (afterDrawBit s).elapsedMs = s.elapsedMs := by unfold afterDrawBit; split <;> rfl
@[simp] theorem afterDrawBit_cfg (s : State) : (afterDrawBit s).cfg = s.cfg := by unfold afterDrawBit; split <;> rfl
@[simp] theorem afterDrawBit_turns (s : State) : (afterDrawBit s).turns = s.turns := by unfold afterDrawBit; split <;> rfl
@[simp] theorem afterDrawBit_rxIn (s : State) : (afterDrawBit s).rxIn = s.rxIn := by unfold afterDrawBit; split <;> rfl
@[simp] theorem afterDrawBit_rdata (s : State) : (afterDrawBit s).rdata = s.rdata := by unfold afterDrawBit; split <;> rfl

end Sys2Proof.Machine
end

