-- ==== Sys2Proof/Laws/Uops.lean ====
section
/-! SUPPORT. What each shared operation of the driver can do, said once: the peripheral write, a μop, the advance, a
driver step. -/

namespace Sys2Proof.Machine

/-- Setting a bit of P_CTRL always succeeds and changes P_CTRL alone (R79). -/
theorem setCtrlBit_eq (k : Nat) (v : Bool) (s : State) :
    setCtrlBit k v s = .ok { s with pCtrl := withBit (s.pCtrl &&& ctrlMask) k v &&& ctrlMask } := rfl

/-! The μops that touch the peripheral, each as one equation (R44, R78). -/

theorem doUop_set (k : Trigger) (s : State) :
    doUop (.set k) s = .done { s with pCtrl := withBit (s.pCtrl &&& ctrlMask) k.bit true &&& ctrlMask } := rfl

theorem doUop_wackdt (v : Bool) (s : State) :
    doUop (.wackdt v) s = .done { s with pCtrl := withBit (s.pCtrl &&& ctrlMask) 5 v &&& ctrlMask } := rfl

theorem doUop_wdata (b : Byte) (s : State) :
    doUop (.wdata b) s = if s.en then .done { s with pData := b, pStat := withBit s.pStat 0 true }
      else .stops .dataWriteWhileDisabled := by
  show writeResult (if s.en then _ else _) = _
  split_ifs <;> rfl

theorem doUop_rdata (d : Bool) (s : State) : doUop (.rdata d) s = .done (writeByteReg d s.pData s) := rfl

theorem doUop_wdiv (v : Byte) (s : State) : doUop (.wdiv v) s = .done { s with pDiv := v } := rfl

theorem doUop_wctrl (v : Byte) (s : State) : doUop (.wctrl v) s = .done { s with pCtrl := v &&& ctrlMask } := rfl

/-- The EN bit a CK reads is P_CTRL.EN (R130). -/
theorem ck_reads_en (s : State) : (periphRead 0 s).getLsbD 7 = s.en := by
  show (s.pCtrl &&& ctrlMask).getLsbD 7 = s.pCtrl.getLsbD 7
  rw [getLsbD_ctrlMask]; simp

/-- The faults of the transaction table are the four of R131. -/
theorem txnTable_error {c : BusCmd} {t : Txn} {f : FaultCode} (h : txnTable c t = .error f) :
    f = .noTxn ∨ f = .txnOpen ∨ f = .sequence ∨ f = .direction := by
  cases c <;> cases t <;> simp_all [txnTable]

theorem doUop_hold_idle {s : State} (h : s.idleP = true) : doUop .hold s = .done s := by simp [doUop, h]

theorem doUop_hold_busy {s : State} (h : s.idleP = false) : doUop .hold s = .holds := by simp [doUop, h]

/-- The CK of a bus primitive: EN, then the table (R130, R214). -/
theorem doUop_ckBus (c : BusCmd) (s : State) :
    doUop (.ckBus c) s = if s.en then txnCheck c s else .raises .notEnabled := by
  simp only [doUop, ckBus, ck_reads_en]

theorem txnCheck_ok {c : BusCmd} {s : State} {n : Txn} (h : txnTable c s.txn = .ok n) :
    txnCheck c s = .done (ckClears c { s with txn := n }) := by simp [txnCheck, h]

theorem txnCheck_error {c : BusCmd} {s : State} {f : FaultCode} (h : txnTable c s.txn = .error f) :
    txnCheck c s = .raises f := by simp [txnCheck, h]

/-- What a μop that completes has done (R44). -/
theorem doUop_done {u : Uop} {s t : State} (h : doUop u s = .done t) :
    (u = .hold ∧ s.idleP = true ∧ t = s) ∨
    (∃ c n, u = .ckBus c ∧ s.en = true ∧ txnTable c s.txn = .ok n ∧ t = ckClears c { s with txn := n }) ∨
    (∃ n, u = .ckInit ∧ txnTable .init s.txn = .ok n ∧ t = { s with txn := n }) ∨
    (∃ k, u = .set k ∧ t = { s with pCtrl := withBit (s.pCtrl &&& ctrlMask) k.bit true &&& ctrlMask }) ∨
    (∃ b, u = .wdata b ∧ s.en = true ∧ t = { s with pData := b, pStat := withBit s.pStat 0 true }) ∨
    (∃ d, u = .rdata d ∧ t = writeByteReg d s.pData s) ∨
    (∃ v, u = .wackdt v ∧ t = { s with pCtrl := withBit (s.pCtrl &&& ctrlMask) 5 v &&& ctrlMask }) ∨
    (∃ v, u = .wdiv v ∧ t = { s with pDiv := v }) ∨
    (∃ v, u = .wctrl v ∧ t = { s with pCtrl := v &&& ctrlMask }) ∨
    (∃ n, u = .dly n ∧ t = { s with elapsedMs := s.elapsedMs + n.toNat }) ∨
    (∃ r, u = .asm r ∧ s.vB0 = true ∧ s.vB1 = true ∧ t = writeRaw r (raw14 s.b0 s.b1) s) ∨
    (∃ r, u = .dec r ∧ rawValid r s = true ∧ t = writeDecoded r s) ∨
    (∃ r, u = .fmt r ∧ decodedValid r s = true ∧ t = emit (readingStr r s) s) := by
  cases u with
  | hold => simp only [doUop] at h; split at h <;> simp_all
  | ckBus c =>
    simp only [doUop, ckBus, ck_reads_en, txnCheck] at h
    split at h
    · split at h
      · simp at h
      · rename_i n hn; exact .inr (.inl ⟨c, n, rfl, ‹_›, hn, by simpa using h.symm⟩)
    · simp at h
  | ckInit =>
    simp only [doUop, txnCheck] at h
    split at h
    · simp at h
    · rename_i n hn; exact .inr (.inr (.inl ⟨n, rfl, hn, by simpa [ckClears] using h.symm⟩))
  | set k => simp only [doUop_set, UopResult.done.injEq] at h; simp [← h]
  | wdata b =>
    rw [doUop_wdata] at h
    split_ifs at h with he
    simp only [UopResult.done.injEq] at h; simp [← h, he]
  | rdata d => simp only [doUop_rdata, UopResult.done.injEq] at h; simp [← h]
  | wackdt v => simp only [doUop_wackdt, UopResult.done.injEq] at h; simp [← h]
  | wdiv v => simp only [doUop_wdiv, UopResult.done.injEq] at h; simp [← h]
  | wctrl v => simp only [doUop_wctrl, UopResult.done.injEq] at h; simp [← h]
  | dly n => simp only [doUop, UopResult.done.injEq] at h; simp [← h]
  | asm r => simp only [doUop, asmUop] at h; split at h <;> simp_all
  | dec r => simp only [doUop, decUop] at h; split at h <;> simp_all
  | fmt r => simp only [doUop, fmtUop] at h; split at h <;> simp_all

/-- Only a HOLD holds, and only while the peripheral is not idle (R45). -/
theorem doUop_holds {u : Uop} {s : State} (h : doUop u s = .holds) : u = .hold ∧ s.idleP = false := by
  cases u with
  | hold => simp only [doUop] at h; split at h <;> simp_all
  | wdata b => rw [doUop_wdata] at h; split_ifs at h
  | ckBus c =>
    simp only [doUop, ckBus, txnCheck] at h
    split_ifs at h
    split at h
    · simp at h
    · simp at h
  | ckInit => simp only [doUop, txnCheck] at h; split at h <;> simp_all
  | asm r => simp only [doUop, asmUop] at h; split at h <;> simp_all
  | dec r => simp only [doUop, decUop] at h; split at h <;> simp_all
  | fmt r => simp only [doUop, fmtUop] at h; split at h <;> simp_all
  | set _ => simp [doUop_set] at h
  | wackdt _ => simp [doUop_wackdt] at h
  | rdata _ => simp [doUop_rdata] at h
  | wdiv _ => simp [doUop_wdiv] at h
  | wctrl _ => simp [doUop_wctrl] at h
  | dly _ => simp [doUop] at h

/-- A μop raises only the faults of its check (R211): never NONE, never ILLEGAL. -/
theorem doUop_raises {u : Uop} {s : State} {c : FaultCode} (h : doUop u s = .raises c) :
    (∃ k, u = .ckBus k ∧ s.en = false ∧ c = .notEnabled) ∨ (∃ k, u = .ckBus k ∧ s.en = true ∧ txnTable k s.txn = .error c) ∨
    (u = .ckInit ∧ txnTable .init s.txn = .error c) ∨
    (c = .unwritten ∧ ((∃ r, u = .asm r ∧ (s.vB0 && s.vB1) = false) ∨ (∃ r, u = .dec r ∧ rawValid r s = false) ∨
      ∃ r, u = .fmt r ∧ decodedValid r s = false)) := by
  cases u with
  | ckBus k =>
    simp only [doUop, ckBus, ck_reads_en, txnCheck] at h
    split at h
    · split at h <;> simp_all
    · simp_all
  | ckInit => simp only [doUop, txnCheck] at h; split at h <;> simp_all
  | asm r => simp only [doUop, asmUop] at h; split at h <;> simp_all
  | dec r => simp only [doUop, decUop] at h; split at h <;> simp_all
  | fmt r => simp only [doUop, fmtUop] at h; split at h <;> simp_all
  | hold => simp only [doUop] at h; split at h <;> simp_all
  | wdata b => rw [doUop_wdata] at h; split_ifs at h
  | set _ => simp [doUop_set] at h
  | wackdt _ => simp [doUop_wackdt] at h
  | rdata _ => simp [doUop_rdata] at h
  | wdiv _ => simp [doUop_wdiv] at h
  | wctrl _ => simp [doUop_wctrl] at h
  | dly _ => simp [doUop] at h

theorem doUop_raises_code {u : Uop} {s : State} {c : FaultCode} (h : doUop u s = .raises c) :
    c ≠ .none ∧ c ≠ .illegal := by
  rcases doUop_raises h with ⟨_, _, _, rfl⟩ | ⟨_, _, _, h⟩ | ⟨_, h⟩ | ⟨rfl, _⟩
  · simp
  · rcases txnTable_error h with rfl | rfl | rfl | rfl <;> simp
  · rcases txnTable_error h with rfl | rfl | rfl | rfl <;> simp
  · simp

/-- The model stops only at a P_DATA write with EN = 0 (R78, log 9). -/
theorem doUop_stops {u : Uop} {s : State} {f : Fault} (h : doUop u s = .stops f) :
    (∃ b, u = .wdata b) ∧ s.en = false ∧ f = .dataWriteWhileDisabled := by
  cases u with
  | hold => simp only [doUop] at h; split at h <;> simp_all
  | wdata b => rw [doUop_wdata] at h; split_ifs at h; simp_all
  | ckBus c =>
    simp only [doUop, ckBus, txnCheck] at h
    split_ifs at h
    split at h
    · simp at h
    · simp at h
  | ckInit => simp only [doUop, txnCheck] at h; split at h <;> simp_all
  | asm r => simp only [doUop, asmUop] at h; split at h <;> simp_all
  | dec r => simp only [doUop, decUop] at h; split at h <;> simp_all
  | fmt r => simp only [doUop, fmtUop] at h; split at h <;> simp_all
  | set _ => simp [doUop_set] at h
  | wackdt _ => simp [doUop_wackdt] at h
  | rdata _ => simp [doUop_rdata] at h
  | wdiv _ => simp [doUop_wdiv] at h
  | wctrl _ => simp [doUop_wctrl] at h
  | dly _ => simp [doUop] at h

/-- Where the advance goes (R46). -/
theorem advance_cases (nP nU : Nat) (s : State) :
    (s.mph.toNat + 1 < nU ∧ advance nP nU s = { s with mph := s.mph + 1 }) ∨
    (nU ≤ s.mph.toNat + 1 ∧ s.ph.toNat + 1 < nP ∧ advance nP nU s = { s with ph := s.ph + 1, mph := 0 }) ∨
    (nU ≤ s.mph.toNat + 1 ∧ nP ≤ s.ph.toNat + 1 ∧
      advance nP nU s = { s with ph := 0, mph := 0, busy := false, cur := 0 }) := by
  unfold advance
  split_ifs with h1 h2
  · exact .inl ⟨h1, rfl⟩
  · exact .inr (.inl ⟨by omega, h2, rfl⟩)
  · exact .inr (.inr ⟨by omega, by omega, rfl⟩)

/-- A μop leaves PH, MPH, BUSY, CUR and HALT alone. -/
theorem doUop_keeps_control {u : Uop} {s t : State} (h : doUop u s = .done t) :
    t.ph = s.ph ∧ t.mph = s.mph ∧ t.busy = s.busy ∧ t.cur = s.cur ∧ t.halt = s.halt ∧ t.cfg = s.cfg ∧
      t.fault = s.fault ∧ t.fcmd = s.fcmd ∧ t.busLog = s.busLog ∧ t.turns = s.turns ∧ t.rxIn = s.rxIn ∧
      t.ackIn = s.ackIn ∧ t.draws = s.draws ∧ t.rdata = s.rdata := by
  rcases doUop_done h with ⟨-, -, rfl⟩ | ⟨_, _, -, -, -, rfl⟩ | ⟨_, -, -, rfl⟩ | ⟨_, -, rfl⟩ | ⟨_, -, -, rfl⟩ |
    ⟨_, -, rfl⟩ | ⟨_, -, rfl⟩ | ⟨_, -, rfl⟩ | ⟨_, -, rfl⟩ | ⟨_, -, rfl⟩ | ⟨_, -, -, -, rfl⟩ | ⟨_, -, -, rfl⟩ | ⟨_, -, -, rfl⟩ <;>
    simp

/-- What a driver step that answers a next state has done. -/
theorem driverStep_next {prims : List Instr} {s t : State} (h : driverStep prims s = .next t) :
    ∃ p u, prims[s.ph.toNat]? = some p ∧ (uopsOf p)[s.mph.toNat]? = some u ∧
      ((∃ s', doUop u s = .done s' ∧ t = advance prims.length (uopsOf p).length s') ∨
       (u = .hold ∧ s.idleP = false ∧ t = s) ∨ ∃ c, doUop u s = .raises c ∧ t = raiseFault c s) := by
  unfold driverStep at h
  split at h
  · simp at h
  · rename_i p hp
    split at h
    · simp at h
    · rename_i u hu
      refine ⟨p, u, hp, hu, ?_⟩
      unfold settle at h
      split at h
      · rename_i s' hs; exact .inl ⟨s', hs, by simpa using h.symm⟩
      · rename_i hs; exact .inr (.inl ⟨(doUop_holds hs).1, (doUop_holds hs).2, by simpa using h.symm⟩)
      · rename_i c hs; exact .inr (.inr ⟨c, hs, by simpa using h.symm⟩)
      · simp at h

@[simp] theorem settle_done (n m : Nat) (s t : State) : settle n m s (.done t) = .next (advance n m t) := rfl
@[simp] theorem settle_holds (n m : Nat) (s : State) : settle n m s .holds = .next s := rfl
@[simp] theorem settle_raises (n m : Nat) (s : State) (c : FaultCode) :
    settle n m s (.raises c) = .next (raiseFault c s) := rfl
@[simp] theorem settle_stops (n m : Nat) (s : State) (f : Fault) : settle n m s (.stops f) = .fault f := rfl

/-- The driver step at a known μop, by the μop's result. -/
theorem driverStep_at {prims : List Instr} {s : State} {p : Instr} {u : Uop} (hp : prims[s.ph.toNat]? = some p)
    (hu : (uopsOf p)[s.mph.toNat]? = some u) :
    driverStep prims s =
      settle prims.length (uopsOf p).length s (doUop u s) := by
  simp only [driverStep, hp, hu]

/-- Every command is a driver step of its primitive list (R43, R46). -/
theorem exec_eq_driverStep (i : Instr) (s : State) : exec i s = driverStep (primsOf s.cfg i) s := by
  cases i <;> rfl

/-- A primitive command at a known μop: PH is 0 and the list has one entry (R43). -/
theorem exec_primitive_at {i : Instr} {s : State} {m : BitVec 3} {u : Uop} (hp : primsOf s.cfg i = [i]) (h0 : s.ph = 0)
    (hm : s.mph = m) (hu : (uopsOf i)[m.toNat]? = some u) :
    exec i s =
      settle 1 (uopsOf i).length s (doUop u s) := by
  rw [exec_eq_driverStep, driverStep_at (p := i) (u := u) (by rw [hp, h0]; rfl) (by rw [hm]; exact hu), hp]; rfl

end Sys2Proof.Machine
end

