-- ==== Sys2Proof/Laws/Step.lean ====
section
/-! SUPPORT. What one step can do, said once (`step_cases`), and an invariant's induction over a run. -/

namespace Sys2Proof.Machine

/-- A driver's turn that answers a next state: no step, a word that is no command, or a command's step. -/
theorem driverTurn_cases {s t : State} (h : driverTurn s = .next t) :
    ((s.busy = false ∨ s.halt = true) ∧ t = s) ∨
    (s.busy = true ∧ s.halt = false ∧ (∃ e, decode s.cur = .error e) ∧ t = raiseFault .illegal s) ∨
    (∃ i, s.busy = true ∧ s.halt = false ∧ decode s.cur = .ok i ∧ driverStep (primsOf s.cfg i) s = .next t) := by
  unfold driverTurn at h
  split_ifs at h with hb
  · simp only [Bool.and_eq_true, Bool.not_eq_true'] at hb
    split at h
    · rename_i i hi; exact .inr (.inr ⟨i, hb.1, hb.2, hi, by rw [← exec_eq_driverStep]; exact h⟩)
    · rename_i e he; exact .inr (.inl ⟨hb.1, hb.2, ⟨e, he⟩, by simpa using h.symm⟩)
  · refine .inl ⟨?_, by simpa using h.symm⟩
    cases hbu : s.busy <;> cases hh : s.halt <;> simp_all

/-- The running command, by the fields it is read from. -/
theorem running_eq_some {s : State} {i : Instr} :
    s.running = some i ↔ s.busy = true ∧ s.halt = false ∧ decode s.cur = .ok i := by
  unfold State.running
  cases s.busy <;> cases s.halt <;> simp
  split <;> simp_all

/-- The state a step acts on: the turn it takes, if one was named and does not wait, is consumed. -/
def turnTaken (s u : State) : Prop := u = s ∨ ∃ τ ts, s.turns = τ :: ts ∧ u = { s with turns := ts }

/-- What a step that answers a next state has done (R6, R230, R236, R240). -/
theorem step_cases {s t : State} (h : step s = .next t) :
    ∃ u, turnTaken s u ∧
      (driverTurn u = .next t ∨ (∃ op, t = periphTurn op u) ∨ (∃ off, t = hostRead off u) ∨
       (∃ w, u.busy = false ∧ t = issue w u) ∨ t = u ∨ (t = blockReset u ∧ s.turns.head? = some .reset)) := by
  have unnamed : ∀ s, unnamedStep s = .next t → driverTurn s = .next t ∨ ∃ op, t = periphTurn op s := by
    intro s hs
    unfold unnamedStep at hs
    split at hs
    · split_ifs at hs
      · exact .inr ⟨_, by simpa using hs.symm⟩
      · exact .inl hs
    · exact .inl hs
  unfold step at h
  split at h
  · exact ⟨s, .inl rfl, by rcases unnamed s h with h | h <;> simp [h]⟩
  · rename_i τ ts hts
    split_ifs at h with hw
    · exact ⟨s, .inl rfl, by rcases unnamed s h with h | h <;> simp [h]⟩
    · refine ⟨_, .inr ⟨τ, ts, hts, rfl⟩, ?_⟩
      cases τ with
      | driver => exact .inl h
      | periph op => exact .inr (.inl ⟨op, by simpa [takeTurn] using h.symm⟩)
      | read off => exact .inr (.inr (.inl ⟨off, by simpa [takeTurn] using h.symm⟩))
      | write off v =>
        simp only [takeTurn, Host.Outcome.next.injEq, hostWrite] at h
        by_cases h0 : off = 0
        · refine .inr (.inr (.inr (.inl ⟨v, ?_, by simpa [h0] using h.symm⟩)))
          simpa [hostWaits, h0] using hw
        · rw [if_neg h0] at h; exact .inr (.inr (.inr (.inr (.inl h.symm))))
      | consume => exact .inr (.inr (.inr (.inr (.inl (by simpa [takeTurn, hostConsume] using h.symm)))))
      | reset =>
        exact .inr (.inr (.inr (.inr (.inr ⟨by simpa [takeTurn] using h.symm, by simp [hts]⟩))))
      | partialAccess => simp [takeTurn] at h
      | peripheralAccess => simp [takeTurn] at h
      | otherMaster => simp [takeTurn] at h

/-- The issue step's three outcomes (R236). -/
theorem issue_cases (w : Word) (s : State) :
    (s.halt = true ∧ issue w s = s) ∨
    (s.halt = false ∧ (∃ e, decode w = .error e) ∧ issue w s = raiseFault .illegal (latch w s)) ∨
    (∃ i, s.halt = false ∧ decode w = .ok i ∧ issue w s = clearAtIssue i { latch w s with busy := true }) := by
  unfold issue
  cases hh : s.halt
  · cases hd : decode w <;> simp
  · simp

/-! Runs of `core`, a step at a time. -/

@[simp] theorem run_zero (s : State) : Sys2Proof.core.run 0 s = .next s := rfl

theorem run_succ_next {s u : State} (h : step s = .next u) (k : Nat) :
    Sys2Proof.core.run (k + 1) s = Sys2Proof.core.run k u := by
  have h' : Sys2Proof.core.step s = .next u := h
  simp only [Host.Core.run, h']

theorem run_succ_fault {s : State} {r : Fault} (h : step s = .fault r) (k : Nat) :
    Sys2Proof.core.run (k + 1) s = .fault r := by
  have h' : Sys2Proof.core.step s = .fault r := h
  simp only [Host.Core.run, h']

theorem run_succ_refused {s : State} {r : Refusal} (h : step s = .refused r) (k : Nat) :
    Sys2Proof.core.run (k + 1) s = .refused r := by
  have h' : Sys2Proof.core.step s = .refused r := h
  simp only [Host.Core.run, h']

/-- A run of j + k steps is a run of j and then one of k. -/
theorem run_add {s u : State} : ∀ (j k : Nat), Sys2Proof.core.run j s = .next u →
    Sys2Proof.core.run (j + k) s = Sys2Proof.core.run k u
  | 0, k, h => by
    simp only [run_zero] at h; cases h; rw [Nat.zero_add]
  | j + 1, k, h => by
    rw [Nat.add_right_comm]
    cases hs : step s with
    | next v => rw [run_succ_next hs] at h ⊢; exact run_add j k h
    | fault r => rw [run_succ_fault hs] at h; cases h
    | refused r => rw [run_succ_refused hs] at h; cases h

/-- A property that holds of a state and that every step keeps holds after any run from it. -/
theorem run_keeps {Inv : State → Prop} (hstep : ∀ s t, Inv s → step s = .next t → Inv t) :
    ∀ (k : Nat) (s t : State), Inv s → Sys2Proof.core.run k s = .next t → Inv t
  | 0, s, t, hs, h => by simp only [run_zero] at h; cases h; exact hs
  | k + 1, s, t, hs, h => by
    cases hst : step s with
    | next u => rw [run_succ_next hst] at h; exact run_keeps hstep k u t (hstep s u hs hst) h
    | fault r => rw [run_succ_fault hst] at h; cases h
    | refused r => rw [run_succ_refused hst] at h; cases h

end Sys2Proof.Machine
end

