-- ==== Sys2Proof/Laws/Turns.lean ====
section
/-! SUPPORT. The peripheral's and the driver's steps neither read nor write the turns to come; what a completion step
appends and leaves alone; and a halted block's driver. -/

namespace Sys2Proof.Machine

/-- The result of a μop with other turns to come. -/
def UopResult.withTurns (ts : List Turn) : UopResult → UopResult
  | .done t => .done { t with turns := ts }
  | .holds => .holds
  | .raises c => .raises c
  | .stops f => .stops f

/-- The outcome of a step with other turns to come. -/
def outcomeWithTurns (ts : List Turn) : Host.Outcome State Fault Refusal → Host.Outcome State Fault Refusal
  | .next t => .next { t with turns := ts }
  | .fault f => .fault f
  | .refused r => .refused r

theorem doUop_withTurns (u : Uop) (s : State) (ts : List Turn) :
    doUop u { s with turns := ts } = (doUop u s).withTurns ts := by
  cases u with
  | hold => show (if s.idleP then _ else _) = _; simp only [doUop]; split_ifs <;> rfl
  | ckBus c =>
    simp only [doUop_ckBus, txnCheck]
    show (if s.en then _ else _) = _
    split_ifs
    · cases txnTable c s.txn <;> first | rfl | (cases c <;> rfl)
    · rfl
  | ckInit => simp only [doUop, txnCheck]; cases txnTable .init s.txn <;> rfl
  | wdata b => simp only [doUop_wdata]; show (if s.en then _ else _) = _; split_ifs <;> rfl
  | rdata d => cases d <;> rfl
  | asm r => simp only [doUop, asmUop]; split_ifs <;> cases r <;> rfl
  | dec r =>
    have h : rawValid r { s with turns := ts } = rawValid r s := by cases r <;> rfl
    simp only [doUop, decUop, h]; split_ifs <;> first | rfl | (cases r <;> rfl)
  | fmt r =>
    have h : decodedValid r { s with turns := ts } = decodedValid r s := by cases r <;> rfl
    simp only [doUop, fmtUop, h]; split_ifs <;> rfl
  | set _ => rfl
  | wackdt _ => rfl
  | wdiv _ => rfl
  | wctrl _ => rfl
  | dly _ => rfl

theorem advance_withTurns (nP nU : Nat) (s : State) (ts : List Turn) :
    advance nP nU { s with turns := ts } = { advance nP nU s with turns := ts } := by
  unfold advance; split_ifs <;> rfl

theorem driverStep_withTurns (prims : List Instr) (s : State) (ts : List Turn) :
    driverStep prims { s with turns := ts } = outcomeWithTurns ts (driverStep prims s) := by
  simp only [driverStep]
  cases prims[s.ph.toNat]? with
  | none => rfl
  | some p =>
    cases hu : (uopsOf p)[s.mph.toNat]? with
    | none => simp only [hu]; rfl
    | some u =>
      simp only [hu, doUop_withTurns]
      cases doUop u s <;> simp [UopResult.withTurns, settle, outcomeWithTurns, advance_withTurns, raiseFault]

theorem driverTurn_withTurns (s : State) (ts : List Turn) :
    driverTurn { s with turns := ts } = outcomeWithTurns ts (driverTurn s) := by
  simp only [driverTurn, exec_eq_driverStep]
  split_ifs
  · cases decode s.cur with
    | ok i => exact driverStep_withTurns _ s ts
    | error e => rfl
  · rfl

theorem periphEffect_withTurns (op : PeriphOp) (s : State) (ts : List Turn) :
    periphEffect op { s with turns := ts } = { periphEffect op s with turns := ts } := by
  cases op with
  | pRx =>
    simp only [periphEffect, completeRx, drawnByte, afterDrawByte]
    cases s.rxIn <;> rfl
  | pTx =>
    simp only [periphEffect, completeTx, drawnBit, afterDrawBit]
    cases s.ackIn <;> rfl
  | pStart => rfl
  | pRstart => rfl
  | pStop => rfl
  | pAck => rfl

theorem periphEnabled_withTurns (op : PeriphOp) (s : State) (ts : List Turn) :
    periphEnabled op { s with turns := ts } = periphEnabled op s := rfl

theorem periphTurn_withTurns (op : PeriphOp) (s : State) (ts : List Turn) :
    periphTurn op { s with turns := ts } = { periphTurn op s with turns := ts } := by
  simp only [periphTurn, periphEnabled_withTurns, periphEffect_withTurns]; split_ifs <;> rfl

/-- The step where no turn is named does not depend on the turns to come, and leaves them (log 2). -/
theorem unnamedStep_withTurns (s : State) (ts : List Turn) :
    unnamedStep { s with turns := ts } = outcomeWithTurns ts (unnamedStep s) := by
  have he : enabledOp { s with turns := ts } = enabledOp s := rfl
  simp only [unnamedStep, he, driverTurn_withTurns, periphTurn_withTurns]
  cases enabledOp s with
  | none => rfl
  | some op => simp only; split_ifs <;> rfl

/-- A completion step appends its one entry (R230, R232). -/
theorem periphEffect_busLog (op : PeriphOp) (s : State) :
    (periphEffect op s).busLog = s.busLog ++ [busEntry op s] := by
  cases op <;> simp [periphEffect, completeRx, completeTx, busEntry]

/-- A completion step leaves the driver's control state alone (R38, R233). -/
theorem periphEffect_keeps_control (op : PeriphOp) (s : State) :
    (periphEffect op s).ph = s.ph ∧ (periphEffect op s).mph = s.mph ∧ (periphEffect op s).busy = s.busy ∧
      (periphEffect op s).cur = s.cur ∧ (periphEffect op s).halt = s.halt ∧ (periphEffect op s).fault = s.fault ∧
      (periphEffect op s).fcmd = s.fcmd ∧ (periphEffect op s).txn = s.txn ∧ (periphEffect op s).cfg = s.cfg ∧
      (periphEffect op s).turns = s.turns := by
  cases op <;> simp [periphEffect, completeRx, completeTx]

/-- The operation found enabled is enabled. -/
theorem enabledOp_some {s : State} {op : PeriphOp} (h : enabledOp s = some op) : periphEnabled op s = true := by
  simpa using List.find?_some h

/-- While HALT = 1 the driver has no step (R213). -/
theorem driverTurn_halted {s : State} (h : s.halt = true) : driverTurn s = .next s := by simp [driverTurn, h]

end Sys2Proof.Machine
end

