-- ==== Sys2Proof/Tests/Slice0.lean ====
section
/-! SUPPORT. Tests. Expected values are the spec's own (30_encoding.md, the examples of 40_bus_phases.md and 41_decoder.md,
95_test_vectors.md). The `witness_` theorems show, for the statement they are named after, states that meet the
hypotheses of each of its clauses. -/

namespace Sys2Proof.Tests

open Sys2Proof Sys2Proof.Machine

/-! ## Helpers -/

/-- The illustrative parameters of 95_test_vectors.md, with a fair peripheral. -/
def bench : Config := ⟨0x40, 0xE5, 0xE3, true⟩

/-- After reset and INIT: the peripheral enabled and idle, nothing open. -/
def ready : State := { State.reset with pCtrl := 0x80, cfg := bench }

/-- Nothing initialised: EN = 0. -/
def cold : State := { State.reset with cfg := bench }

/-- `i` is the running command, at PH and MPH. -/
def at' (i : Instr) (ph : BitVec 5) (mph : BitVec 3) (s : State) : State :=
  { s with cur := encode i, busy := true, ph := ph, mph := mph }

/-- In transaction state `t`. -/
def txnIs (t : Txn) (s : State) : State := { s with txn := t }

/-- SEN is pending, so the peripheral is not idle. -/
def pending (s : State) : State := { s with pCtrl := s.pCtrl ||| 0x01 }

/-- These turns are to come. -/
def turning (ts : List Turn) (s : State) : State := { s with turns := ts }

/-- Halted by a fault SEQUENCE of an RSTART. -/
def halted : State := { ready with halt := true, fault := .sequence, fcmd := 0x3000, cur := 0x3000, txn := .addr }

/-- The outcome is a next state with this property. -/
def nextIs (o : Host.Outcome State Fault Refusal) (p : State → Bool) : Bool :=
  match o with
  | .next t => p t
  | .fault _ => false
  | .refused _ => false

/-- The outcome is exactly this next state. -/
def gives (o : Host.Outcome State Fault Refusal) (t : State) : Bool := nextIs o fun u => u == t

/-- The state meets these hypotheses. -/
def meets (s : State) (p : State → Bool) : Bool := p s

/-- At the first primitive and this μop. -/
def atUop (m : BitVec 3) (s : State) : Bool := s.ph == 0 && s.mph == m

/-! ## Decoding (95_test_vectors.md Part 2, R106, R107) -/

theorem test_decode_waitIdle : decode 0b0001000000000000 = .ok .waitIdle := by decide
theorem test_decode_start : decode 0b0010000000000000 = .ok .start := by decide
theorem test_decode_rstart : decode 0b0011000000000000 = .ok .rstart := by decide
theorem test_decode_stop : decode 0b0100000000000000 = .ok .stop := by decide
theorem test_decode_send : decode 0b0101000011100101 = .ok (.send 0xE5) := by decide
theorem test_decode_recv_ack_b0 : decode 0b0110000100000000 = .ok (.recv true false) := by decide
theorem test_decode_recv_nack_b1 : decode 0b0110001000000000 = .ok (.recv false true) := by decide
theorem test_decode_delay : decode 0b0111000011001000 = .ok (.delay 200) := by decide
theorem test_decode_init : decode 0b1000000000100111 = .ok (.init 0x27) := by decide
theorem test_decode_asmRh : decode 0b1001000000000000 = .ok .asmRh := by decide
theorem test_decode_asmT : decode 0b1001000000000001 = .ok .asmT := by decide
theorem test_decode_decRh : decode 0b1010000000000000 = .ok .decRh := by decide
theorem test_decode_decT : decode 0b1011000000000000 = .ok .decT := by decide
theorem test_decode_fmtRh : decode 0b1100000000000000 = .ok .fmtRh := by decide
theorem test_decode_fmtT : decode 0b1101000000000000 = .ok .fmtT := by decide
theorem test_decode_measRh : decode 0b1110000000000000 = .ok .measRh := by decide
theorem test_decode_measT : decode 0b1110000000000001 = .ok .measT := by decide
theorem test_decode_cycle : decode 0b1111000000000000 = .ok .cycle := by decide

theorem test_decode_opcodeZero : decode 0x0000 = .error .opcodeZero ∧ decode 0x0FFF = .error .opcodeZero := by decide

theorem test_decode_reservedBits :
    [0x1001, 0x2100, 0x5100, 0x6400, 0x6001, 0x8100, 0x9002, 0xA001, 0xE002, 0xF001].all
      (fun w => decode w == .error .reservedBitSet) = true := by decide

/-- No two rows of R106 match the same word: two rows differ in a bit both masks keep. -/
theorem test_rows_disjoint :
    (opRows.map fun r => (r.bits, r.mask)).Pairwise (fun p q => p.1 &&& q.2 ≠ q.1 &&& p.2) := by decide

/-- Every row's word runs as the first command after reset (operand bits 0). -/
theorem test_rows_run_after_reset :
    [0x1000, 0x2000, 0x3000, 0x4000, 0x5000, 0x6000, 0x7000, 0x8000, 0x9000, 0x9001, 0xA000, 0xB000, 0xC000, 0xD000,
      0xE000, 0xE001, 0xF000].all
      (fun w => (decodeTableWord 16 w).isSome && nextIs (step (State.reset.withFetchWord 16 w)) fun _ => true) = true := by
  decide

/-! ## Well-formedness: an ill-formed line for each check (R109), and the assembler (R110) -/

theorem test_wf_send_refused : AsmLine.wellFormed (.send 256) = false ∧ AsmLine.wellFormed (.send 255) = true := by decide
theorem test_wf_init_refused : AsmLine.wellFormed (.init 256) = false ∧ AsmLine.wellFormed (.init 255) = true := by decide
theorem test_wf_delay_refused :
    AsmLine.wellFormed (.delay 4096) = false ∧ AsmLine.wellFormed (.delay 4095) = true := by decide
theorem test_wf_recv_refused :
    AsmLine.wellFormed (.recv true 2) = false ∧ AsmLine.wellFormed (.recv true 1) = true := by decide
theorem test_wf_recvA_recvN_refused :
    AsmLine.wellFormed (.recvA 2) = false ∧ AsmLine.wellFormed (.recvN 2) = false := by decide
theorem test_config_refused : configOf 0x80 0 0 true = none ∧ configOf 0x7F 0xFF 0xFF true ≠ none := by decide

/-- Lines of the programs P1 and P2, and of R110. -/
theorem test_assembles_lines :
    assembleLine bench "INIT 0x27".toList = .ok (some 0x8027) ∧
    assembleLine bench "  RECV nack, B1 ; last byte".toList = .ok (some 0x6200) ∧
    assembleLine bench "DELAY 200".toList = .ok (some 0x70C8) ∧
    assembleLine bench "SENDR".toList = .ok (some 0x5081) ∧
    assembleLine bench "SENDCMD t".toList = .ok (some 0x50E3) ∧
    assembleLine bench "MEAS t".toList = .ok (some 0xE001) ∧
    assembleLine bench "; only a comment".toList = .ok none := ⟨rfl, rfl, rfl, rfl, rfl, rfl, rfl⟩

/-- The pseudo-instructions of R110 and the selector forms of R109. -/
theorem test_assembles_pseudo :
    [AsmLine.sendW, .sendR, .sendCmd .rh, .sendCmd .t, .recvA 0, .recvA 1, .recvN 0, .recvN 1, .decode .rh, .decode .t,
      .asm .rh, .asm .t, .meas .rh, .meas .t].map (fun l => (assemble bench l).map encode) =
      [0x5080, 0x5081, 0x50E5, 0x50E3, 0x6100, 0x6300, 0x6000, 0x6200, 0xA000, 0xB000, 0x9000, 0x9001, 0xE000, 0xE001].map
        some := by decide

theorem test_assembler_rejects :
    assembleLine bench "SEND 256".toList = .error .outOfRange ∧
    assembleLine bench "RECV ack, B2".toList = .error .outOfRange ∧
    assembleLine bench "SEND".toList = .error .badOperands ∧
    assembleLine bench "HALT".toList = .error .unknownMnemonic := ⟨rfl, rfl, rfl, rfl⟩

/-! ## The primitives: the examples of R132 to R145 -/

/-- P_CTRL = 0x81: WAIT_IDLE holds until the peripheral clears SEN, then completes with 0x80. -/
theorem test_waitIdle :
    gives (exec .waitIdle (at' .waitIdle 0 0 (pending ready))) (at' .waitIdle 0 0 (pending ready)) = true ∧
    gives (exec .waitIdle (at' .waitIdle 0 0 (periphTurn .pStart (pending ready)))) { ready with busLog := [.start] } = true := by
  decide

/-- START ends with P_CTRL = 0x81. -/
theorem test_start :
    nextIs (exec .start (at' .start 0 2 (txnIs .addr ready))) (fun t => t.pCtrl == 0x81 && t.txn == .addr && !t.busy) = true := by
  decide

/-- RSTART sets RSEN: P_CTRL = 0x82. -/
theorem test_rstart :
    nextIs (exec .rstart (at' .rstart 0 2 (txnIs .addr ready))) (fun t => t.pCtrl == 0x82 && !t.busy) = true := by decide

/-- V-BUS-1: STOP takes P_CTRL from 0xA0 to 0xA4. -/
theorem test_stop :
    nextIs (exec .stop (at' .stop 0 2 { ready with pCtrl := 0xA0 })) (fun t => t.pCtrl == 0xA4 && !t.busy) = true := by decide

/-- SEND 0x81 in ADDR: READ; then P_DATA = 0x81 and BUSY = 1. -/
theorem test_send :
    nextIs (exec (.send 0x81) (at' (.send 0x81) 0 0 (txnIs .addr ready))) (fun t => t.txn == .read && t.mph == 1) = true ∧
    nextIs (exec (.send 0x81) (at' (.send 0x81) 0 2 (txnIs .read ready))) (fun t => t.pData == 0x81 && t.pStat == 1) = true := by
  decide

/-- RECV ack, B0 with the slave's answer 0x40: B0 = 0x40, V_B0 = 1; RECV nack leaves P_CTRL.ACKDT = 1. -/
theorem test_recv :
    nextIs (exec (.recv true false) (at' (.recv true false) 0 4 { ready with pData := 0x40, txn := .readMore }))
      (fun t => t.b0 == 0x40 && t.vB0 && t.b1 == 0 && !t.vB1 && t.mph == 5) = true ∧
    nextIs (exec (.recv false true) (at' (.recv false true) 0 5 (txnIs .readDone ready))) (fun t => t.pCtrl == 0xA0) = true := by
  decide

/-- INIT 0x27 after reset: P_DIV = 0x27, then P_CTRL = 0x80. -/
theorem test_init :
    nextIs (exec (.init 0x27) (at' (.init 0x27) 0 2 cold)) (fun t => t.pDiv == 0x27 && t.pCtrl == 0) = true ∧
    nextIs (exec (.init 0x27) (at' (.init 0x27) 0 3 cold)) (fun t => t.pCtrl == 0x80 && !t.busy) = true := by decide

/-- DELAY 200, with EN = 0. -/
theorem test_delay : gives (exec (.delay 200) (at' (.delay 200) 0 0 cold)) { cold with elapsedMs := 200 } = true := by decide

/-! ## The decoder (Part 4) -/

/-- E1: 0x40 and 0x80 give 4128. -/
theorem test_asmRh :
    nextIs (exec .asmRh (at' .asmRh 0 0 { ready with b0 := 0x40, b1 := 0x80, vB0 := true, vB1 := true }))
      (fun t => t.rawRh == 4128 && t.vRawRh && !t.vRawT) = true := by decide

/-- 0xFF and 0xFC give 16383; with V_B1 = 0 a fault UNWRITTEN with FCMD = 0x9001. -/
theorem test_asmT :
    nextIs (exec .asmT (at' .asmT 0 0 { ready with b0 := 0xFF, b1 := 0xFC, vB0 := true, vB1 := true }))
      (fun t => t.rawT == 16383 && t.vRawT && !t.vRawRh) = true ∧
    nextIs (exec .asmT (at' .asmT 0 0 { ready with vB0 := true }))
      (fun t => t.fault == .unwritten && t.fcmd == 0x9001 && t.halt && !t.busy) = true := by decide

/-- 8192 gives 56, not the source's 55 (E2). -/
theorem test_decRh :
    nextIs (exec .decRh (at' .decRh 0 0 { ready with rawRh := 8192, vRawRh := true })) (fun t => t.rh == 56 && t.vRh) = true := by
  decide

/-- The tie at 2048 goes away from zero: -2489. -/
theorem test_decT :
    nextIs (exec .decT (at' .decT 0 0 { ready with rawT := 2048, vRawT := true }))
      (fun t => t.tc.toInt == -2489 && t.vTc) = true := by decide

theorem test_rh_values :
    [rhOf 0, rhOf 1, rhOf 655, rhOf 656, rhOf 786, rhOf 918, rhOf 14024, rhOf 14025, rhOf 16383] =
      [-6, -5, -1, 0, 0, 1, 100, 101, 118] := by decide

theorem test_tc_values :
    [tcOf 0, tcOf 1, tcOf 786, tcOf 4128, tcOf 4367, tcOf 4368, tcOf 4369, tcOf 6144, tcOf 8196, tcOf 16383] =
      [-4685, -4684, -3842, -258, -1, 0, 1, 1905, 4105, 12886] := by decide

/-- "-6%" and "118%". -/
theorem test_fmtRh :
    nextIs (exec .fmtRh (at' .fmtRh 0 0 { ready with rh := 0xFFFA, vRh := true, out := [0x30] }))
      (fun t => t.out == [0x30, 0x2D, 0x36, 0x25] && t.vRh) = true ∧ rhStr 118 = [0x31, 0x31, 0x38, 0x25] := by decide

/-- "128.86 C", "-0.01 C" and "0.00 C". -/
theorem test_fmtT :
    nextIs (exec .fmtT (at' .fmtT 0 0 { ready with tc := 12886, vTc := true }))
      (fun t => t.out == [0x31, 0x32, 0x38, 0x2E, 0x38, 0x36, 0x20, 0x43]) = true ∧
    tStr (-1) = [0x2D, 0x30, 0x2E, 0x30, 0x31, 0x20, 0x43] ∧ tStr 0 = [0x30, 0x2E, 0x30, 0x30, 0x20, 0x43] := by decide

/-! ## The sequencer (Part 5) -/

/-- The words of E9, in the order of MEAS.RH's list. -/
theorem test_measRh_list :
    (measList bench .rh).map encode =
      [0x2000, 0x5080, 0x50E5, 0x3000, 0x5081, 0x6100, 0x6200, 0x4000, 0x70C8, 0x9000, 0xA000] := by decide

/-- PH 10 of MEAS.RH: 8192 gives RH = 56 and the command completes. -/
theorem test_measRh_end :
    nextIs (exec .measRh (at' .measRh 10 0 { ready with rawRh := 8192, vRawRh := true }))
      (fun t => t.rh == 56 && t.vRh && !t.busy && t.ph == 0 && t.cur == 0) = true := by decide

/-- PH 5, MPH 2 of MEAS.T sets RCEN and goes to the second hold; PH 10 gives TC = 12886. -/
theorem test_measT :
    nextIs (exec .measT (at' .measT 5 2 (txnIs .readMore ready))) (fun t => t.pCtrl == 0x88 && t.seqWord == 0x65) = true ∧
    nextIs (exec .measT (at' .measT 10 0 { ready with rawT := 16383, vRawT := true })) (fun t => t.tc == 12886 && !t.busy) = true := by
  decide

/-- PH 11 of CYCLE is START; PH 22 emits the humidity string and goes on. -/
theorem test_cycle :
    nextIs (exec .cycle (at' .cycle 11 0 ready)) (fun t => t.txn == .addr && t.ph == 11 && t.mph == 1) = true ∧
    nextIs (exec .cycle (at' .cycle 22 0 { ready with rh := 56, vRh := true }))
      (fun t => t.out == [0x35, 0x36, 0x25] && t.ph == 23 && t.busy) = true := by decide

/-! ## The peripheral, the host and the step -/

/-- V-BUS-6: a NACK is recorded in ACKSTAT and logged. -/
theorem test_periph_tx :
    nextIs (step (turning [.periph .pTx] { ready with pData := 0x81, pStat := 1, ackIn := [true] }))
      (fun t => t.pStat == 2 && t.busLog == [.tx 0x81 true] && t.ackIn == []) = true := by decide

/-- V-BUS-4: STATUS = 0x011 during the receive of PH 5. -/
theorem test_status :
    nextIs (step (turning [.read 1] (at' .measRh 5 3 { ready with txn := .readMore }))) (fun t => t.rdata == 0x011) = true := by
  decide

/-- V-BUS-7: after a fault, INIT is dropped. -/
theorem test_halted_drops : gives (step (turning [.write 0 0x8027] halted)) halted = true := by decide

/-- CYCLE in ADDR: the valid bits are cleared at issue, the fault TXN_OPEN comes at PH 0. -/
theorem test_cycle_faults_in_addr :
    nextIs (step (turning [.write 0 0xF000] { ready with txn := .addr, vRh := true, vTc := true }))
      (fun t => !t.vRh && !t.vTc && t.busy) = true ∧
    nextIs (exec .cycle (at' .cycle 0 0 (txnIs .addr ready))) (fun t => t.fault == .txnOpen && t.fcmd == 0xF000) = true := by
  decide

/-! ## Witnesses: encoding, the step and the host -/

theorem witness_EncodeOfDecodeIsTheWord :
    decode 0x7FFF = .ok (.delay 0xFFF) ∧ decode 0x6300 = .ok (.recv true true) := by decide

theorem witness_DriverTurnRunsTheLatchedCommand :
    meets (turning [.driver] (at' .start 0 0 ready)) (fun s =>
      s.turns == [.driver] && s.busy && !s.halt && decode s.cur == .ok .start &&
        nextIs (step s) (fun t => t.txn == .addr)) = true := by decide

theorem witness_IssueLatchesFaultsOrDrops :
    meets (turning [.write 0 0x8027] halted) (fun s => !s.busy && s.halt) = true ∧
    meets (turning [.write 0 0x0FFF] ready) (fun s => !s.busy && !s.halt &&
      opRows.all (fun r => 0x0FFF &&& r.mask != r.bits) && nextIs (step s) (fun t => t.fault == .illegal && t.fcmd == 0x0FFF)) = true ∧
    meets (turning [.write 0 0xE000] { ready with vRh := true }) (fun s => !s.busy && !s.halt &&
      nextIs (step s) (fun t => !t.vRh && t.busy)) = true ∧
    meets (turning [.write 0 0xE001] { ready with vTc := true }) (fun s => !s.busy && !s.halt &&
      nextIs (step s) (fun t => !t.vTc && t.busy)) = true ∧
    meets (turning [.write 0 0xF000] { ready with vRawT := true }) (fun s => !s.busy && !s.halt &&
      nextIs (step s) (fun t => !t.vRawT && t.busy)) = true ∧
    meets (turning [.write 0 0x70C8] { ready with vRh := true }) (fun s => !s.busy && !s.halt &&
      decode 0x70C8 == .ok (.delay 200) && !isCompound (.delay 200) && nextIs (step s) (fun t => t.vRh && t.cur == 0x70C8)) = true := by
  decide

/-- A DELAY ends while the write waits, CUR keeping the delay's word until then; the model's stop comes through too. -/
theorem witness_CommandWriteWaitsWhileBusy :
    meets (turning [.write 0 0x1000] (at' (.delay 5) 0 0 ready)) (fun s =>
      s.busy && s.turns == [.write 0 0x1000] && nextIs (step { s with turns := [] }) (fun u => u.cur == 0 && u.elapsedMs == 5) &&
        nextIs (step s) (fun t => t.turns == [.write 0 0x1000] && t.cur == 0 && t.elapsedMs == 5)) = true ∧
    meets (turning [.write 0 0xF000] (at' .start 0 0 ready)) (fun s =>
      s.busy && nextIs (step s) (fun t => t.cur == 0x2000 && t.mph == 1 && t.turns == s.turns)) = true ∧
    meets (turning [.write 0 0x1000] (at' (.send 0) 0 2 cold)) (fun s => s.busy &&
      (match step { s with turns := [] } with | .fault f => f == .dataWriteWhileDisabled | _ => false)) = true := by decide

theorem witness_HaltedBlockDropsCommands :
    meets (turning [.write 0 0xF000] halted) (fun s => s.halt && !s.busy) = true ∧
    meets (turning [.driver] halted) (fun s => s.halt) = true ∧
    meets halted (fun s => s.halt && s.turns == [] && gives (step s) s) = true ∧
    meets (pending halted) (fun s => s.turns == [] && periphEnabled .pStart s &&
      gives (step s) { halted with busLog := [.start] }) = true ∧
    meets (turning [.write 0 0x1000] { halted with busy := true }) (fun s => s.halt && s.busy && gives (step s) s) = true ∧
    meets (turning [.periph .pStart] (pending halted)) (fun s =>
      s.halt && periphEnabled .pStart s && nextIs (step s) (fun t => t.busLog == [.start] && t.halt)) = true := by decide

theorem witness_OnlyResetClearsAFault :
    meets (turning [.write 0 0x1000] halted) (fun s =>
      s.halt && s.turns.head? != some .reset && nextIs (step s) (fun t => t.fcmd == 0x3000)) = true ∧
    meets (turning [.reset] halted) (fun s =>
      s.halt && s.turns.head? == some .reset && nextIs (step s) (fun t => !t.halt && t.fcmd == 0)) = true := by decide

theorem witness_FaultRecordStaysConsistent :
    meets (turning [.driver] (at' .stop 0 0 ready)) (fun s =>
      s.faultRecordOk && nextIs (step s) (fun t => t.fault == .noTxn && t.halt)) = true := by decide

/-- Every clause of the host's reads, the reserved offsets at both ends. -/
theorem witness_HostReadReturnsTheRegister :
    [(0, true), (1, true), (2, true), (3, true), (4, true), (5, true), (6, true), (7, true), (8, true), (9, true),
      (10, true), (11, true), (15, true), (4, false), (9, false)].all
      (fun p : BitVec 4 × Bool =>
        meets (turning [.read p.1]
            { halted with b0 := 4, b1 := 5, rawRh := 6, rawT := 7, rh := 8, tc := 9, vB0 := p.2, vB1 := p.2,
                          vRawRh := p.2, vRawT := p.2, vRh := p.2, vTc := p.2, ph := 10 })
          (fun s => s.turns == [.read p.1] && nextIs (step s) (fun t => !p.2 || t.rdata == hostContent p.1 s))) = true := by
  decide

theorem witness_OtherHostWritesAndConsumeChangeNothing :
    gives (step (turning [.write 1 0xF000] ready)) ready = true ∧ gives (step (turning [.write 15 1] ready)) ready = true ∧
    gives (step (turning [.consume] ready)) ready = true := by decide

theorem witness_BlockResetLeavesThePeripheral :
    meets (turning [.reset] (pending (at' .start 0 1 (txnIs .addr ready)))) (fun s =>
      s.turns == [.reset] && nextIs (step s) (fun t => t.pCtrl == 0x81 && !t.busy && t.txn == .idle)) = true := by decide

theorem witness_RefusedAccessesHaveNoStep :
    [Turn.partialAccess, .peripheralAccess, .otherMaster].all
      (fun τ => (turning [τ] ready).turns == [τ] && !nextIs (step (turning [τ] ready)) fun _ => true) = true := by decide

/-! ## Witnesses: the primitives -/

theorem witness_WaitIdleHoldsThenCompletes :
    meets (at' .waitIdle 0 0 cold) (fun s => atUop 0 s && s.idleP && !s.en) = true ∧
    meets (at' .waitIdle 0 0 (pending ready)) (fun s => atUop 0 s && !s.idleP) = true := by decide

theorem witness_StartRunsToItsStartCondition :
    meets (at' .start 0 0 ready) (fun s => atUop 0 s && s.en && s.txn == .idle) = true ∧
    meets (at' .start 0 1 ready) (fun s => atUop 1 s && s.idleP) = true ∧
    meets (at' .start 0 1 (pending ready)) (fun s => atUop 1 s && !s.idleP) = true ∧
    meets (at' .start 0 2 ready) (fun s => atUop 2 s) = true := by decide

theorem witness_RepeatedStartKeepsTheBus :
    meets (at' .rstart 0 0 (txnIs .write ready)) (fun s => atUop 0 s && s.en && s.txn == .write &&
      nextIs (exec .rstart s) (fun t => t.txn == .addr)) = true ∧
    meets (at' .rstart 0 1 ready) (fun s => atUop 1 s && s.idleP) = true ∧
    meets (at' .rstart 0 1 (pending ready)) (fun s => atUop 1 s && !s.idleP) = true ∧
    meets (at' .rstart 0 2 ready) (fun s => atUop 2 s) = true := by decide

theorem witness_StopReleasesTheBus :
    [Txn.write, .readDone].all (fun x => meets (at' .stop 0 0 (txnIs x ready)) fun s => atUop 0 s && s.en && s.txn == x &&
      nextIs (exec .stop s) (fun t => t.txn == .idle)) = true ∧
    meets (at' .stop 0 1 ready) (fun s => atUop 1 s && s.idleP) = true ∧
    meets (at' .stop 0 1 (pending ready)) (fun s => atUop 1 s && !s.idleP) = true ∧
    meets (at' .stop 0 2 ready) (fun s => atUop 2 s) = true := by decide

theorem witness_SendTransmitsItsByte :
    meets (at' (.send 0x80) 0 0 (txnIs .addr ready)) (fun s => atUop 0 s && s.en && s.txn == .addr &&
      nextIs (exec (.send 0x80) s) (fun t => t.txn == .write)) = true ∧
    meets (at' (.send 0x81) 0 0 (txnIs .addr ready)) (fun s => atUop 0 s && s.en && s.txn == .addr &&
      nextIs (exec (.send 0x81) s) (fun t => t.txn == .read)) = true ∧
    meets (at' (.send 0x81) 0 0 (txnIs .write ready)) (fun s => atUop 0 s && s.en && s.txn == .write &&
      nextIs (exec (.send 0x81) s) (fun t => t.txn == .write)) = true ∧
    meets (at' (.send 0xFF) 0 1 ready) (fun s => atUop 1 s && s.idleP) = true ∧
    meets (at' (.send 0xFF) 0 1 (pending ready)) (fun s => atUop 1 s && !s.idleP) = true ∧
    meets (at' (.send 0xFF) 0 2 ready) (fun s => atUop 2 s && s.en) = true ∧
    meets (at' (.send 0xFF) 0 2 cold) (fun s => atUop 2 s && !s.en) = true := by decide

theorem witness_ReceiveReadsThenAcknowledges :
    [(Txn.read, true, Txn.readMore), (.read, false, .readDone), (.readMore, true, .readMore), (.readMore, false, .readDone)].all
      (fun x => meets (at' (.recv x.2.1 false) 0 0 (txnIs x.1 ready)) fun s => atUop 0 s && s.en && s.txn == x.1 &&
        nextIs (exec (.recv x.2.1 false) s) (fun t => t.txn == x.2.2)) = true ∧
    [1, 3].all (fun m => meets (at' (.recv true true) 0 m ready) (fun s => atUop m s && s.idleP) &&
      meets (at' (.recv true true) 0 m (pending ready)) (fun s => atUop m s && !s.idleP)) = true ∧
    [2, 4, 5, 6].all (fun m => meets (at' (.recv true true) 0 m ready) (fun s => atUop m s)) = true ∧
    meets (at' (.recv true true) 0 4 { ready with pData := 0x40 }) (fun s => atUop 4 s &&
      nextIs (exec (.recv true true) s) (fun t => t.b1 == 0x40 && t.vB1 && !t.vB0)) = true := by decide

theorem witness_InitLoadsTheDivisorAndEnables :
    meets (at' (.init 0xFF) 0 0 cold) (fun s => atUop 0 s && s.txn == .idle) = true ∧
    meets (at' (.init 0xFF) 0 0 (txnIs .addr ready)) (fun s => atUop 0 s && s.txn != .idle) = true ∧
    meets (at' (.init 0xFF) 0 1 cold) (fun s => atUop 1 s && s.idleP) = true ∧
    meets (at' (.init 0xFF) 0 1 (pending ready)) (fun s => atUop 1 s && !s.idleP) = true ∧
    meets (at' (.init 0xFF) 0 2 cold) (fun s => atUop 2 s) = true ∧
    meets (at' (.init 0xFF) 0 3 cold) (fun s => atUop 3 s) = true := by decide

theorem witness_DelayAddsItsMilliseconds :
    meets (at' (.delay 4095) 0 0 (pending cold)) (fun s => atUop 0 s &&
      nextIs (exec (.delay 4095) s) (fun t => t.elapsedMs == 4095)) = true := by decide

/-- Every fault cell of R131, from the rows of Part 3, and EN before the table. -/
theorem witness_ProtocolMisuseFaultsBeforeTheBus :
    [(Instr.start, Txn.addr, FaultCode.txnOpen), (.start, .readDone, .txnOpen), (.rstart, .idle, .noTxn),
      (.rstart, .addr, .sequence), (.rstart, .read, .sequence), (.rstart, .readMore, .sequence),
      (.rstart, .readDone, .sequence), (.stop, .idle, .noTxn), (.stop, .addr, .sequence), (.stop, .read, .sequence),
      (.stop, .readMore, .sequence), (.send 0x80, .idle, .noTxn), (.send 0, .read, .direction),
      (.send 0, .readMore, .direction), (.send 0, .readDone, .direction), (.recv true false, .idle, .noTxn),
      (.recv true false, .addr, .direction), (.recv true false, .write, .direction), (.recv false true, .readDone, .sequence)].all
      (fun x => meets (at' x.1 0 0 (txnIs x.2.1 ready)) fun s => atUop 0 s && s.en && s.txn == x.2.1 &&
        nextIs (exec x.1 s) (fun t => t.fault == x.2.2)) = true ∧
    [Instr.start, .rstart, .stop, .send 0x80, .recv true false].all
      (fun i => meets (at' i 0 0 (txnIs .write cold)) fun s => atUop 0 s && !s.en &&
        nextIs (exec i s) (fun t => t.fault == .notEnabled)) = true := by decide

/-! ## Witnesses: the decoder -/

theorem witness_AssemblyWritesTheRawValue :
    meets (at' .asmRh 0 0 { ready with vB0 := true, vB1 := true }) (fun s => atUop 0 s && s.vB0 && s.vB1) = true ∧
    meets (at' .asmRh 0 0 { ready with vB1 := true }) (fun s => atUop 0 s && !s.vB0) = true ∧
    meets (at' .asmT 0 0 { ready with vB0 := true }) (fun s => atUop 0 s && !s.vB1) = true := by decide

theorem witness_HumidityIsTruncatedTowardZero :
    meets (at' .decRh 0 0 { ready with vRawRh := true, rawRh := 786 }) (fun s => atUop 0 s && s.vRawRh &&
      nextIs (exec .decRh s) (fun t => t.rh == 0)) = true ∧
    meets (at' .decRh 0 0 ready) (fun s => atUop 0 s && !s.vRawRh) = true := by decide

theorem witness_TemperatureIsRoundedHalfAway :
    meets (at' .decT 0 0 { ready with vRawT := true, rawT := 14336 }) (fun s => atUop 0 s && s.vRawT &&
      nextIs (exec .decT s) (fun t => t.tc == 10691)) = true ∧
    meets (at' .decT 0 0 { ready with vRawT := true, rawT := 2048 }) (fun s => atUop 0 s && s.rawT.toNat == 2048) = true ∧
    meets (at' .decT 0 0 ready) (fun s => atUop 0 s && !s.vRawT) = true := by decide

theorem witness_HumidityRangeAndOrder : 16383 ≤ 16383 ∧ rhOf 655 = -1 ∧ rhOf 656 = 0 ∧ rhOf 14024 = 100 := by decide

theorem witness_TemperatureRangeAndOrder : 16383 ≤ 16383 ∧ tcOf 0 = -4685 ∧ tcOf 16383 = 12886 := by decide

theorem witness_FormatAppendsTheString :
    meets (at' .fmtRh 0 0 { ready with vRh := true }) (fun s => atUop 0 s && s.vRh) = true ∧
    meets (at' .fmtRh 0 0 ready) (fun s => atUop 0 s && !s.vRh) = true ∧
    meets (at' .fmtT 0 0 { ready with vTc := true }) (fun s => atUop 0 s && s.vTc) = true ∧
    meets (at' .fmtT 0 0 ready) (fun s => atUop 0 s && !s.vTc) = true := by decide

theorem witness_DisplayStringsSpellTheirValues :
    rhStr (-6) = [0x2D, 0x36, 0x25] ∧ rhStr 0 = [0x30, 0x25] ∧ rhStr 118 = [0x31, 0x31, 0x38, 0x25] ∧
    tStr (-4685) = [0x2D, 0x34, 0x36, 0x2E, 0x38, 0x35, 0x20, 0x43] := by decide

/-- Two states that agree on the operands and differ elsewhere (EN, TXN, OUT). -/
theorem witness_DecoderDependsOnItsOperandsOnly :
    nextIs (exec .fmtRh (at' .fmtRh 0 0 { ready with vRh := true })) (fun t => t.out == [0x30, 0x25]) = true ∧
    nextIs (exec .fmtRh (at' .fmtRh 0 0 { cold with vRh := true, txn := .read, out := [1] }))
      (fun t => t.out == [1, 0x30, 0x25]) = true := by decide

/-! ## Witnesses: the sequencer -/

/-- PH 2 of CYCLE, a middle μop and a last one; and the last primitive. -/
theorem witness_CompoundCommandsRunTheirPrimitives :
    meets (at' .cycle 2 0 (txnIs .write ready)) (fun s => isCompound .cycle && s.busy && !s.halt &&
      (primsOf s.cfg .cycle)[s.ph.toNat]? == some (.send 0xE5) &&
      nextIs (exec (.send 0xE5) { s with ph := 0 }) (fun t => t.busy)) = true ∧
    meets (at' .cycle 2 2 (txnIs .write ready)) (fun s => s.busy && !s.halt &&
      nextIs (exec (.send 0xE5) { s with ph := 0 }) (fun t => !t.busy && !t.halt) &&
      nextIs (exec .cycle s) (fun t => t.ph == 3 && t.mph == 0 && t.busy)) = true ∧
    meets (at' .cycle 23 0 { ready with vTc := true }) (fun s => (primsOf s.cfg .cycle)[s.ph.toNat]? == some .fmtT &&
      nextIs (exec .cycle s) (fun t => !t.busy)) = true ∧
    meets (at' .measRh 0 0 cold) (fun s => nextIs (exec .start { s with ph := 0 }) (fun t => t.halt)) = true ∧
    nextIs (step (turning [.write 0 0xF000] ready)) (fun t => (primsOf t.cfg .measT)[2]? == some (.send 0xE3)) = true := by
  decide

theorem witness_CompoundCommandsOpenAndComplete :
    [Instr.measRh, .measT, .cycle].all (fun i =>
      meets (at' i 0 0 ready) (fun s => atUop 0 s && s.en && s.txn == .idle) &&
      meets (at' i 0 0 cold) (fun s => atUop 0 s && !s.en) &&
      meets (at' i 0 0 (txnIs .write ready)) (fun s => atUop 0 s && s.en && s.txn != .idle)) = true ∧
    meets (at' .measRh 10 0 { ready with vRawRh := true }) (fun s => s.ph == 10 && s.mph == 0 && s.vRawRh) = true ∧
    meets (at' .measT 10 0 { ready with vRawT := true }) (fun s => s.ph == 10 && s.mph == 0 && s.vRawT) = true ∧
    meets (at' .cycle 23 0 { ready with vTc := true }) (fun s => s.ph == 23 && s.mph == 0 && s.vTc) = true := by decide

theorem witness_MeasurementRunsToItsResult :
    [0xE000, 0xE001].all (fun w =>
      meets { ready with turns := [.write 0 w], rxIn := [0x80, 0x00], ackIn := [true, false, true] } fun s =>
        s.turns == [.write 0 w] && !s.busy && !s.halt && s.en && s.txn == .idle && s.idleP && s.cfg.periphFair &&
          s.rxIn == [0x80, 0x00] && s.ackIn == [true, false, true]) = true := by decide

theorem witness_CycleShowsBothReadings :
    meets { ready with turns := [.write 0 0xF000], rxIn := [0x80, 0x00, 0xFF, 0xFF],
                       ackIn := [false, false, false, false, false, true] } (fun s =>
      s.turns == [.write 0 0xF000] && !s.busy && !s.halt && s.en && s.txn == .idle && s.idleP && s.cfg.periphFair &&
        s.rxIn.length == 4 && s.ackIn.length == 6) = true := by decide

theorem witness_CompoundFaultsAtTheFirstCheckOnly :
    meets (turning [.driver] (at' .measRh 0 0 cold)) (fun s => s.compoundOk && nextIs (step s) (fun t => t.halt)) = true ∧
    meets (turning [.driver] (at' .cycle 3 0 { ready with txn := .write })) (fun s =>
      s.compoundOk && s.running == some .cycle && isCompound .cycle && s.ph != 0 && nextIs (step s) (fun t => !t.halt)) = true := by
  decide

/-! ## Witnesses: the peripheral -/

/-- Each completion step, enabled and not, with the slave's answer named and not; and EN = 0. -/
theorem witness_PeripheralCompletionsAreThoseOfTheTable :
    [(PeriphOp.pStart, 0x01), (.pRstart, 0x02), (.pStop, 0x04), (.pRx, 0x08), (.pAck, 0x10)].all
      (fun x : PeriphOp × Byte =>
        meets (turning [.periph x.1] { ready with pCtrl := 0x80 ||| x.2, rxIn := [0x40] }) (fun s =>
          s.en && periphEnabled x.1 s && nextIs (step s) (fun t => t.pCtrl == 0x80 && t.busLog.length == 1)) &&
        meets (turning [.periph x.1] ready) (fun s => s.en && !periphEnabled x.1 s) &&
        meets (turning [.periph x.1] { cold with pCtrl := x.2 }) (fun s => !s.en && nextIs (step s) (fun t => t.pCtrl == x.2))) = true ∧
    meets (turning [.periph .pRx] { ready with pCtrl := 0x88 }) (fun s =>
      s.trigger .rcen && s.rxIn == [] && nextIs (step s) (fun t => t.draws == 1)) = true ∧
    meets (turning [.periph .pTx] { ready with pStat := 1, ackIn := [true] }) (fun s => s.txBusy && s.ackIn == [true]) = true ∧
    meets (turning [.periph .pTx] { ready with pStat := 1 }) (fun s => s.txBusy && s.ackIn == []) = true ∧
    meets (turning [.periph .pTx] ready) (fun s => !s.txBusy) = true := by decide

theorem witness_PeripheralSetsNoTrigger :
    meets { ready with pCtrl := 0x90 } (fun s => (periphTurn .pStart s).pCtrl.getLsbD 4 && s.pCtrl.getLsbD 4) = true ∧
    (periphTurn .pStart { ready with pStat := 1 }).txBusy = true := by decide

theorem witness_DriverClearsNoTrigger :
    meets (pending (at' (.delay 1) 0 0 ready)) (fun s => s.pendingOk && s.running == some (.delay 1) &&
      s.pCtrl.getLsbD 0 && nextIs (exec (.delay 1) s) (fun t => t.pCtrl.getLsbD 0)) = true := by decide

theorem witness_AtMostOneOperationPending :
    meets (turning [.driver] (at' (.send 1) 0 2 (txnIs .write ready))) (fun s =>
      s.pendingOk && nextIs (step s) (fun t => t.pendingCount == 1)) = true := by decide

theorem witness_BusLogGrowsByCompletionsOnly :
    meets (turning [.periph .pStart] (pending ready)) (fun s =>
      s.turns.head? != some .reset && periphEnabled .pStart s && nextIs (step s) (fun t => t.busLog == [.start])) = true ∧
    meets (at' (.delay 1) 0 0 { ready with pStat := 1, pData := 0x81, ackIn := [true] }) (fun s => s.turns == [] &&
      periphEnabled .pTx s && nextIs (step s) (fun t => t.busLog == [.tx 0x81 true] && t.elapsedMs == 0)) = true ∧
    meets (turning [.driver] (at' (.delay 1) 0 0 (pending ready))) (fun s =>
      nextIs (step s) (fun t => t.busLog == [] && t.elapsedMs == 1)) = true ∧
    meets (turning [.consume] ready) (fun s => nextIs (step s) (fun t => t.busLog == s.busLog)) = true := by decide

theorem witness_HoldIsLiftedOnlyByTheFairPeripheral :
    [true, false].all (fun f =>
      meets (pending (at' .waitIdle 0 0 { ready with cfg := ⟨0x40, 0xE5, 0xE3, f⟩ })) fun s =>
        s.pendingOk && s.turns == [] && s.curUop == some .hold && !s.idleP && s.en && s.cfg.periphFair == f &&
          nextIs (step s) (fun t => t.idleP == f)) = true := by decide

theorem witness_EveryCommandEndsUnderFairness :
    meets (pending (at' .cycle 0 0 ready)) (fun s =>
      s.positionOk && s.pendingOk && s.cfg.periphFair && s.turns == [] && s.en && s.busy) = true ∧
    meets (at' (.init 1) 0 0 cold) (fun s =>
      s.positionOk && s.pendingOk && s.cfg.periphFair && s.turns == [] && !s.en && s.idleP) = true := by decide

/-! ## Witnesses: the whole machine -/

/-- One state for each of the five ways: fault, hold, next μop, next primitive, end. -/
theorem witness_PhaseCounterOnlyAdvances :
    nextIs (exec .stop (at' .stop 0 0 ready)) (fun t => t.halt) = true ∧
    nextIs (exec .stop (at' .stop 0 1 (pending ready))) (fun t => t.mph == 1) = true ∧
    nextIs (exec (.recv true false) (at' (.recv true false) 0 5 ready)) (fun t => t.mph == 6) = true ∧
    nextIs (exec .cycle (at' .cycle 8 0 ready)) (fun t => t.ph == 9 && t.mph == 0) = true ∧
    nextIs (exec .stop (at' .stop 0 2 ready)) (fun t => !t.busy && t.cur == 0) = true ∧
    (primsOf bench .cycle)[23]? = some .fmtT ∧ (primsOf bench .cycle)[24]? = none := by decide

theorem witness_FaultsArePrecise :
    meets (at' .decT 0 0 ready) (fun s => !s.halt && nextIs (exec .decT s) (fun t => t.halt)) = true := by decide

theorem witness_OutTimeAndDivisorHaveOneWriter :
    nextIs (exec .cycle (at' .cycle 22 0 { ready with vRh := true })) (fun t => t.out != []) = true ∧
    nextIs (exec .cycle (at' .cycle 19 0 ready)) (fun t => t.elapsedMs == 200) = true ∧
    nextIs (exec (.init 0x27) (at' (.init 0x27) 0 2 ready)) (fun t => t.pDiv != 0) = true := by decide

theorem witness_SlaveAcknowledgeIsIgnored :
    nextIs (exec .start (at' .start 0 1 (ready.withAckstat true))) (fun t => t.mph == 2 && t.ackstat) = true ∧
    (match exec (.send 0) (at' (.send 0) 0 2 cold) with | .fault f => f == .dataWriteWhileDisabled | _ => false) = true := by
  decide

theorem witness_TransactionsOpenByStartAndCloseByStop :
    meets (turning [.driver] (at' .cycle 11 0 ready)) (fun s =>
      s.txn == .idle && s.curPrim == some .start && nextIs (step s) (fun t => t.txn != .idle)) = true ∧
    meets (turning [.driver] (at' .stop 0 0 (txnIs .readDone ready))) (fun s =>
      s.txn != .idle && s.curPrim == some .stop && nextIs (step s) (fun t => t.txn == .idle)) = true ∧
    meets (turning [.reset] (txnIs .read ready)) (fun s =>
      s.txn != .idle && s.turns.head? == some .reset && nextIs (step s) (fun t => t.txn == .idle)) = true := by decide

/-- In the middle of a read, RECV nack just read its byte. -/
theorem witness_BusFramingStaysLegal :
    meets (turning [.driver] (at' (.recv false true) 0 5
        { ready with txn := .readDone, busLog := [.start, .tx 0x81 false, .rx 0x40] })) (fun s =>
      s.framingOk && nextIs (step s) (fun t => t.framingOk)) = true := by decide

theorem witness_NoStepStopsTheMachine :
    meets (turning [.driver, .reset] (at' (.send 5) 0 2 (txnIs .write ready))) (fun s =>
      s.positionOk && s.turns.all (fun t => t.permitted) && nextIs (step s) (fun t => t.positionOk)) = true := by decide

theorem witness_ReservedBitsStayZero :
    meets (turning [.driver] (at' (.init 1) 0 3 ready)) (fun s => s.reservedOk && nextIs (step s) (fun t => t.reservedOk)) = true := by
  decide

theorem witness_ValidReadingsStayInRange :
    meets (turning [.driver] (at' .decT 0 0 { ready with rh := 118, vRh := true, rawT := 16383, vRawT := true })) (fun s =>
      s.rangesOk && nextIs (step s) (fun t => t.vTc && t.rangesOk)) = true := by decide

theorem witness_RestingBlockHoldsNoCommand :
    meets (turning [.driver] (at' (.delay 0) 0 0 ready)) (fun s => s.restOk && nextIs (step s) (fun t => !t.busy && t.cur == 0)) = true := by
  decide

end Sys2Proof.Tests
end

section
/-! SUPPORT. Where the driver stands and where an advance takes it, and the one rule by which every invariant of the
machine is shown: what each agent's step must keep (`StepKeeps`). -/

namespace Sys2Proof.Machine

/-! ## The primitive and μop lists (R44, R194) -/

/-- The μops that can raise a fault (R130, R144, R161 to R174). -/
def Uop.checks : Uop → Bool
  | .ckBus _ => true
  | .ckInit => true
  | .asm _ => true
  | .dec _ => true
  | .fmt _ => true
  | _ => false

theorem uopsOf_length_le (p : Instr) : (uopsOf p).length ≤ 7 := by cases p <;> simp [uopsOf]

theorem primsOf_length_le (c : Config) (i : Instr) : (primsOf c i).length ≤ 24 := by
  cases i <;> simp [primsOf, cycleList, measList]

/-- A check is the first μop of its primitive. -/
theorem check_stands_first {p : Instr} {m : Nat} {u : Uop} (h : (uopsOf p)[m]? = some u) (hu : u.checks = true) :
    m = 0 := by
  have tail_checks_nothing : ∀ u ∈ (uopsOf p).tail, u.checks = false := by cases p <;> simp [uopsOf, Uop.checks]
  cases m with
  | zero => rfl
  | succ m => simp [tail_checks_nothing u (List.mem_of_getElem? (by rwa [List.getElem?_tail]))] at hu

/-- Every primitive of a command's list has a first μop, and it needs no idle peripheral. -/
theorem first_uop_of_prim {c : Config} {i q : Instr} (hq : q ∈ primsOf c i) :
    ∃ u, (uopsOf q)[0]? = some u ∧ u.needsIdle = false := by
  have noCompound : ∀ q ∈ primsOf c i, isCompound q = false := by
    cases i <;> simp [primsOf, cycleList, measList, isCompound, asmInstr, decInstr]
  have hc := noCompound q hq
  cases q <;> simp_all [uopsOf, Uop.needsIdle, isCompound]

theorem primsOf_ne_nil (c : Config) (i : Instr) : primsOf c i ≠ [] := by
  cases i <;> simp [primsOf, cycleList, measList]

/-! ## Where the driver stands -/

/-- The driver is at the μop `u` of the primitive `p` of the running command `i` (R42 to R44). -/
structure AtUop (s : State) (i p : Instr) (u : Uop) : Prop where
  busy : s.busy = true
  halt : s.halt = false
  command : decode s.cur = .ok i
  prim : (primsOf s.cfg i)[s.ph.toNat]? = some p
  uop : (uopsOf p)[s.mph.toNat]? = some u

namespace AtUop

variable {s : State} {i p : Instr} {u : Uop}

theorem running_eq (h : AtUop s i p u) : s.running = some i := running_eq_some.2 ⟨h.busy, h.halt, h.command⟩

theorem curPrim_eq (h : AtUop s i p u) : s.curPrim = some p := by simp [State.curPrim, h.running_eq, h.prim]

theorem curUop_eq (h : AtUop s i p u) : s.curUop = some u := by simp [State.curUop, h.curPrim_eq, h.uop]

theorem mph_lt (h : AtUop s i p u) : s.mph.toNat < (uopsOf p).length := (List.getElem?_eq_some_iff.1 h.uop).1

theorem ph_lt (h : AtUop s i p u) : s.ph.toNat < (primsOf s.cfg i).length := (List.getElem?_eq_some_iff.1 h.prim).1

end AtUop

/-- Where `curUop` names a μop, the driver is at it. -/
theorem atUop_of_curUop {s : State} {u : Uop} (h : s.curUop = some u) : ∃ i p, AtUop s i p u := by
  obtain ⟨p, hp, hu⟩ := Option.bind_eq_some_iff.1 h
  obtain ⟨i, hi, hp⟩ := Option.bind_eq_some_iff.1 hp
  obtain ⟨hb, hh, hc⟩ := running_eq_some.1 hi
  exact ⟨i, p, hb, hh, hc, hp, hu⟩

theorem running_of_not_busy {s : State} (h : s.busy = false) : s.running = none := by simp [State.running, h]

theorem curPrim_of_not_busy {s : State} (h : s.busy = false) : s.curPrim = none := by
  simp [State.curPrim, running_of_not_busy h]

theorem curUop_of_not_busy {s : State} (h : s.busy = false) : s.curUop = none := by
  simp [State.curUop, curPrim_of_not_busy h]

theorem curUop_of_curPrim {s : State} {p : Instr} (h : s.curPrim = some p) : s.curUop = (uopsOf p)[s.mph.toNat]? := by
  simp [State.curUop, h]

/-- The driver's turn at a μop is what that μop's result makes of the state (R44). -/
theorem driverTurn_at {s : State} {i p : Instr} {u : Uop} (h : AtUop s i p u) :
    driverTurn s = settle (primsOf s.cfg i).length (uopsOf p).length s (doUop u s) := by
  simp [driverTurn, h.busy, h.halt, h.command, exec_eq_driverStep, driverStep_at h.prim h.uop]

/-- Where the advance takes the driver (R46): to the next μop, to the first μop of the next primitive, or to the end. -/
theorem advance_position {s t : State} {i p : Instr} {u : Uop} (hp : (primsOf s.cfg i)[s.ph.toNat]? = some p)
    (hu : (uopsOf p)[s.mph.toNat]? = some u) (hd : doUop u s = .done t) :
    let n := advance (primsOf s.cfg i).length (uopsOf p).length t
    (s.mph.toNat + 1 < (uopsOf p).length ∧ n.mph.toNat = s.mph.toNat + 1 ∧ n.ph = s.ph ∧ n.busy = s.busy ∧
      n.cur = s.cur) ∨
    (s.mph.toNat + 1 = (uopsOf p).length ∧ s.ph.toNat + 1 < (primsOf s.cfg i).length ∧
      n.ph.toNat = s.ph.toNat + 1 ∧ n.mph = 0 ∧ n.busy = s.busy ∧ n.cur = s.cur) ∨
    (s.mph.toNat + 1 = (uopsOf p).length ∧ s.ph.toNat + 1 = (primsOf s.cfg i).length ∧
      n.ph = 0 ∧ n.mph = 0 ∧ n.busy = false ∧ n.cur = 0) := by
  obtain ⟨hph, hmph, hbusy, hcur, -⟩ := doUop_keeps_control hd
  have hpLt := (List.getElem?_eq_some_iff.1 hp).1
  have huLt := (List.getElem?_eq_some_iff.1 hu).1
  have hpLe := primsOf_length_le s.cfg i
  have huLe := uopsOf_length_le p
  rcases advance_cases (primsOf s.cfg i).length (uopsOf p).length t with ⟨h1, h⟩ | ⟨h1, h2, h⟩ | ⟨h1, h2, h⟩ <;>
    simp [h, hph, hmph, hbusy, hcur] at * <;> omega

/-- The primitive the driver is in after an advance. -/
theorem curPrim_advance {s t : State} {i p : Instr} {u : Uop} (h : AtUop s i p u) (hd : doUop u s = .done t) :
    let n := advance (primsOf s.cfg i).length (uopsOf p).length t
    (s.mph.toNat + 1 < (uopsOf p).length ∧ n.mph.toNat = s.mph.toNat + 1 ∧ n.curPrim = some p) ∨
    (s.mph.toNat + 1 = (uopsOf p).length ∧ n.mph = 0 ∧ ∃ q ∈ primsOf s.cfg i, n.curPrim = some q) ∨
    (s.mph.toNat + 1 = (uopsOf p).length ∧ n.mph = 0 ∧ n.busy = false) := by
  intro n
  obtain ⟨-, -, -, -, hhalt, hcfg, -⟩ := doUop_keeps_control hd
  have running (hb : n.busy = s.busy) (hc : n.cur = s.cur) : n.running = some i :=
    running_eq_some.2 ⟨hb.trans h.busy, by simp [n, hhalt, h.halt], by rw [hc, h.command]⟩
  rcases advance_position h.prim h.uop hd with ⟨h1, hm, hp, hb, hc⟩ | ⟨h1, h2, hp, hm, hb, hc⟩ | ⟨h1, -, -, hm, hb, -⟩
  · refine .inl ⟨h1, hm, ?_⟩
    simp [State.curPrim, running hb hc, n, hcfg] at hp ⊢
    rw [hp, h.prim]
  · refine .inr (.inl ⟨h1, hm, _, List.getElem_mem h2, ?_⟩)
    simp [State.curPrim, running hb hc, n, hcfg, hp]
  · exact .inr (.inr ⟨h1, hm, hb⟩)

/-- An issued command stands at the first of its primitives (R236). -/
theorem curPrim_issued {s : State} {w : Word} {i : Instr} (hh : s.halt = false) (hd : decode w = .ok i) :
    let n := clearAtIssue i { latch w s with busy := true }
    n.mph = 0 ∧ ∃ q ∈ primsOf s.cfg i, n.curPrim = some q := by
  intro n
  have hr : n.running = some i := running_eq_some.2 ⟨by simp [n], by simp [n, hh], by simp [n, hd]⟩
  refine ⟨by simp [n], _, List.getElem_mem (List.length_pos_iff.2 (primsOf_ne_nil s.cfg i)), ?_⟩
  rw [State.curPrim, hr]
  simp [n]

end Sys2Proof.Machine
end

section
/-! SUPPORT. The rule by which every invariant of the machine is shown: what each agent's step must keep. -/

namespace Sys2Proof.Machine

/-- The μops the running primitive owes, where the driver is. -/
theorem AtUop.owedUops_eq {s : State} {i p : Instr} {u : Uop} (h : AtUop s i p u) :
    s.owedUops = if s.mph = 0 then [] else (uopsOf p).drop s.mph.toNat := by
  simp [State.owedUops, h.curPrim_eq]

theorem owedUops_of_curPrim_none {s : State} (h : s.curPrim = none) : s.owedUops = [] := by simp [State.owedUops, h]

theorem owedUops_of_mph_zero {s : State} (h : s.mph = 0) : s.owedUops = [] := by
  simp only [State.owedUops, h, if_true]; split <;> rfl

/-- `P` is kept by what each agent can do in one step: a turn consumed, a μop that completes, a fault recorded (before any
μop is owed), a completion step, a host read, an issue, an illegal word issued, and a reset. -/
structure StepKeeps (P : State → Prop) : Prop where
  turn : ∀ {s τ ts}, P s → s.turns = τ :: ts → P { s with turns := ts }
  uop : ∀ {s t i p u}, P s → AtUop s i p u → doUop u s = .done t →
    P (advance (primsOf s.cfg i).length (uopsOf p).length t)
  fault : ∀ {s c}, P s → s.busy = true → s.halt = false → s.owedUops = [] → c ≠ .none → P (raiseFault c s)
  periph : ∀ {s op}, P s → periphEnabled op s = true → P (periphEffect op s)
  read : ∀ {s} (off), P s → P (hostRead off s)
  issue : ∀ {s w i}, P s → s.busy = false → s.halt = false → decode w = .ok i →
    P (clearAtIssue i { latch w s with busy := true })
  illegal : ∀ {s} (w), P s → s.busy = false → s.halt = false → P (raiseFault .illegal (latch w s))
  reset : ∀ {s u}, P s → P u → s.turns.head? = some .reset → P (blockReset u)

/-- A μop that raises a fault is the first of its primitive, so nothing is owed. -/
theorem doUop_raises_owedUops {s : State} {i p : Instr} {u : Uop} {c : FaultCode} (h : AtUop s i p u)
    (hr : doUop u s = .raises c) : s.owedUops = [] := by
  have hu : u.checks = true := by
    rcases doUop_raises hr with ⟨_, rfl, -⟩ | ⟨_, rfl, -⟩ | ⟨rfl, -⟩ | ⟨-, ⟨_, rfl, -⟩ | ⟨_, rfl, -⟩ | ⟨_, rfl, -⟩⟩ <;> rfl
  exact owedUops_of_mph_zero (BitVec.eq_of_toNat_eq (check_stands_first h.uop hu))

namespace StepKeeps

variable {P : State → Prop} (hP : StepKeeps P)
include hP

/-- The driver's turn keeps it: at a μop by its result (R44 to R46, R212), at a word that is no command by its fault. -/
theorem driverTurn {s t : State} (hs : P s) (h : driverTurn s = .next t) : P t := by
  rcases driverTurn_cases h with ⟨-, rfl⟩ | ⟨hb, hh, ⟨e, he⟩, rfl⟩ | ⟨i, hb, hh, hc, h⟩
  · exact hs
  · have hr : s.running = none := by simp [State.running, hb, hh, he]
    exact hP.fault hs hb hh (owedUops_of_curPrim_none (by simp [State.curPrim, hr])) (by simp)
  · obtain ⟨p, u, hp, hu, h⟩ := driverStep_next h
    have at_u : AtUop s i p u := ⟨hb, hh, hc, hp, hu⟩
    rcases h with ⟨s', hd, rfl⟩ | ⟨-, -, rfl⟩ | ⟨c, hr, rfl⟩
    · exact hP.uop hs at_u hd
    · exact hs
    · exact hP.fault hs hb hh (doUop_raises_owedUops at_u hr) (doUop_raises_code hr).1

/-- Every step keeps it. -/
theorem step {s t : State} (hs : P s) (h : step s = .next t) : P t := by
  obtain ⟨u, hu, h⟩ := step_cases h
  have hPu : P u := by
    rcases hu with rfl | ⟨τ, ts, hts, rfl⟩
    · exact hs
    · exact hP.turn hs hts
  rcases h with h | ⟨op, rfl⟩ | ⟨off, rfl⟩ | ⟨w, hb, rfl⟩ | rfl | ⟨rfl, hr⟩
  · exact hP.driverTurn hPu h
  · unfold periphTurn
    split_ifs with he
    · exact hP.periph hPu he
    · exact hPu
  · exact hP.read off hPu
  · rcases issue_cases w u with ⟨-, h⟩ | ⟨hh, -, h⟩ | ⟨i, hh, hd, h⟩ <;> rw [h]
    · exact hPu
    · exact hP.illegal w hPu hb hh
    · exact hP.issue hPu hb hh hd
  · exact hPu
  · exact hP.reset hs hPu hr

end StepKeeps

/-! ## What a host read, a completion step and a reset leave alone -/

/-- A host read changes the value read and the counter of free values (R50, R87). -/
theorem hostRead_eq (off : BitVec 4) (s : State) : ∃ v d, hostRead off s = { s with rdata := v, draws := d } := by
  unfold hostRead
  split_ifs
  · exact ⟨_, _, rfl⟩
  · exact ⟨_, s.draws, rfl⟩

/-- A completion step changes the peripheral's registers, BUSLOG and the environment's inputs (R38, R233). -/
theorem periphEffect_eq (op : PeriphOp) (s : State) :
    ∃ c st d l rx ack n, periphEffect op s =
      { s with pCtrl := c, pStat := st, pData := d, busLog := l, rxIn := rx, ackIn := ack, draws := n } := by
  cases op with
  | pRx => unfold periphEffect completeRx afterDrawByte; cases s.rxIn <;> exact ⟨_, _, _, _, _, _, _, rfl⟩
  | pTx => unfold periphEffect completeTx afterDrawBit; cases s.ackIn <;> exact ⟨_, _, _, _, _, _, _, rfl⟩
  | pStart => exact ⟨_, _, _, _, _, _, _, rfl⟩
  | pRstart => exact ⟨_, _, _, _, _, _, _, rfl⟩
  | pStop => exact ⟨_, _, _, _, _, _, _, rfl⟩
  | pAck => exact ⟨_, _, _, _, _, _, _, rfl⟩

/-- A property of all the turns to come stays true of those left. -/
theorem turnsAll_stepKeeps (q : Turn → Bool) : StepKeeps fun s => s.turns.all q = true where
  turn hs hts := by simp_all
  uop hs _ hd := by
    obtain ⟨-, -, -, -, -, -, -, -, -, hturns, -⟩ := doUop_keeps_control hd
    simpa [hturns] using hs
  fault hs _ _ _ _ := hs
  periph {s op} hs _ := by obtain ⟨_, _, _, _, _, _, _, h⟩ := periphEffect_eq op s; rwa [h]
  read {s} off hs := by obtain ⟨_, _, h⟩ := hostRead_eq off s; rwa [h]
  issue hs _ _ _ := by simpa using hs
  illegal w hs _ _ := hs
  reset _ hu _ := hu

end Sys2Proof.Machine
end

section
/-! SUPPORT. The invariants of the fault record, the reserved bits, the readings' ranges and the resting block (10_state.md
R31, R32, R35, R41, R42), each as what every agent's step keeps. -/

namespace Sys2Proof.Machine

/-! ## The fault record (R41, R42, R212) -/

theorem faultRecordOk_iff (s : State) :
    s.faultRecordOk = true ↔
      (s.halt = true ↔ s.fault ≠ .none) ∧ (s.fault = .none → s.fcmd = 0) ∧ (s.halt = true → s.busy = false) := by
  unfold State.faultRecordOk
  cases s.halt <;> cases s.busy <;> by_cases h : s.fault = .none <;> simp [h]

/-- A fault's record is consistent whatever it was before. -/
theorem faultRecordOk_raiseFault {c : FaultCode} (hc : c ≠ .none) (s : State) :
    (raiseFault c s).faultRecordOk = true := by
  simp [faultRecordOk_iff, hc]

theorem faultRecordOk_stepKeeps : StepKeeps fun s => s.faultRecordOk = true where
  turn hs _ := hs
  uop {s t i p u} hs h hd := by
    obtain ⟨-, -, -, -, hhalt, -, hfault, hfcmd, -⟩ := doUop_keeps_control hd
    simp_all [faultRecordOk_iff, h.halt]
  fault {s c} _ _ _ _ hc := faultRecordOk_raiseFault hc s
  periph {s op} hs _ := by obtain ⟨_, _, _, _, _, _, _, h⟩ := periphEffect_eq op s; rwa [h]
  read {s} off hs := by obtain ⟨_, _, h⟩ := hostRead_eq off s; rwa [h]
  issue hs _ hh _ := by simp_all [faultRecordOk_iff]
  illegal w _ _ _ := faultRecordOk_raiseFault (by simp) _
  reset _ _ _ := rfl

/-! ## The reserved bits (R31, R32) -/

theorem reservedOk_iff (s : State) :
    s.reservedOk = true ↔ s.pCtrl &&& ~~~ctrlMask = 0 ∧ s.pStat &&& ~~~statMask = 0 := by simp [State.reservedOk]

/-- The mask of a P_CTRL write clears the reserved bit. -/
theorem ctrl_write_reserved (x : Byte) : x &&& ctrlMask &&& ~~~ctrlMask = 0 := by revert x; decide

/-- Clearing a bit sets no reserved bit. -/
theorem clear_bit_reserved {x m : Byte} (h : x &&& m = 0) (k : Nat) : withBit x k false &&& m = 0 := by
  show x &&& ~~~(1#8 <<< k) &&& m = 0
  rw [BitVec.and_assoc, BitVec.and_comm (~~~_) m, ← BitVec.and_assoc, h]
  exact BitVec.zero_and

/-- Writing BUSY or ACKSTAT sets no reserved bit of P_STAT. -/
theorem stat_bit_reserved {x : Byte} (h : x &&& ~~~statMask = 0) {k : Nat} (hk : k < 2) (v : Bool) :
    withBit x k v &&& ~~~statMask = 0 := by
  have all : ∀ (x : Byte) (k : Fin 2) (v : Bool), x &&& ~~~statMask = 0 → withBit x k v &&& ~~~statMask = 0 := by decide
  exact all x ⟨k, hk⟩ v h

theorem reservedOk_stepKeeps : StepKeeps fun s => s.reservedOk = true where
  turn hs _ := hs
  uop hs _ hd := by
    rw [reservedOk_iff] at hs ⊢
    obtain ⟨hctrl, hstat⟩ := hs
    rcases doUop_done hd with ⟨-, -, rfl⟩ | ⟨_, _, -, -, -, rfl⟩ | ⟨_, -, -, rfl⟩ | ⟨_, -, rfl⟩ | ⟨_, -, -, rfl⟩ |
      ⟨_, -, rfl⟩ | ⟨_, -, rfl⟩ | ⟨_, -, rfl⟩ | ⟨_, -, rfl⟩ | ⟨_, -, rfl⟩ | ⟨_, -, -, -, rfl⟩ | ⟨_, -, -, rfl⟩ | ⟨_, -, -, rfl⟩ <;>
      simp [hctrl, hstat, ctrl_write_reserved, stat_bit_reserved]
  fault hs _ _ _ _ := hs
  periph {s op} hs _ := by
    rw [reservedOk_iff] at hs ⊢
    obtain ⟨hctrl, hstat⟩ := hs
    cases op <;> simp [periphEffect, completeRx, completeTx, hctrl, hstat, clear_bit_reserved, stat_bit_reserved]
  read {s} off hs := by obtain ⟨_, _, h⟩ := hostRead_eq off s; rwa [h]
  issue hs _ _ _ := by simpa [reservedOk_iff] using hs
  illegal w hs _ _ := hs
  reset _ hu _ := hu

/-! ## The ranges of the readings (R35, R166, R170) -/

theorem rangesOk_iff (s : State) :
    s.rangesOk = true ↔
      (s.vRh = true → -6 ≤ s.rh.toInt ∧ s.rh.toInt ≤ 118) ∧ (s.vTc = true → -4685 ≤ s.tc.toInt ∧ s.tc.toInt ≤ 12886) := by
  unfold State.rangesOk
  cases s.vRh <;> cases s.vTc <;> simp

/-- The humidity of a 14-bit raw value is in [-6, 118] (R166). -/
theorem rhOf_range {r : Nat} (hr : r < 2 ^ 14) : -6 ≤ rhOf r ∧ rhOf r ≤ 118 := by
  unfold rhOf truncDiv
  split_ifs <;> omega

/-- The temperature of a 14-bit raw value is in [-4685, 12886] (R170). -/
theorem tcOf_range {r : Nat} (hr : r < 2 ^ 14) : -4685 ≤ tcOf r ∧ tcOf r ≤ 12886 := by
  unfold tcOf roundHalfAway
  split_ifs <;> omega

/-- A register holds a 16-bit value as it is. -/
theorem toInt_ofInt_word {x : Int} (hlo : -2 ^ 15 ≤ x) (hhi : x < 2 ^ 15) : (BitVec.ofInt 16 x).toInt = x := by
  rw [BitVec.toInt_ofInt, Int.bmod_eq_of_le] <;> omega

theorem rangesOk_writeDecoded {s : State} (hs : s.rangesOk = true) (r : Reading) : (writeDecoded r s).rangesOk = true := by
  rw [rangesOk_iff] at hs ⊢
  obtain ⟨hrh, htc⟩ := hs
  cases r with
  | rh =>
    obtain ⟨lo, hi⟩ := rhOf_range s.rawRh.isLt
    exact ⟨fun _ => by simp only [writeDecoded]; rw [toInt_ofInt_word (by omega) (by omega)]; exact ⟨lo, hi⟩, htc⟩
  | t =>
    obtain ⟨lo, hi⟩ := tcOf_range s.rawT.isLt
    exact ⟨hrh, fun _ => by simp only [writeDecoded]; rw [toInt_ofInt_word (by omega) (by omega)]; exact ⟨lo, hi⟩⟩

/-- Only DEC writes a reading (R165, R169). -/
theorem doUop_keeps_readings {u : Uop} {s t : State} (h : doUop u s = .done t) (hu : ∀ r, u ≠ .dec r) :
    t.rh = s.rh ∧ t.tc = s.tc ∧ t.vRh = s.vRh ∧ t.vTc = s.vTc := by
  rcases doUop_done h with ⟨-, -, rfl⟩ | ⟨_, _, -, -, -, rfl⟩ | ⟨_, -, -, rfl⟩ | ⟨_, -, rfl⟩ | ⟨_, -, -, rfl⟩ |
    ⟨_, -, rfl⟩ | ⟨_, -, rfl⟩ | ⟨_, -, rfl⟩ | ⟨_, -, rfl⟩ | ⟨_, -, rfl⟩ | ⟨_, -, -, -, rfl⟩ | ⟨_, rfl, -, -⟩ | ⟨_, -, -, rfl⟩ <;>
    simp_all

/-- DEC writes its reading and no other register (R165, R169). -/
theorem doUop_dec_done {r : Reading} {s t : State} (h : doUop (.dec r) s = .done t) : t = writeDecoded r s := by
  simp only [doUop, decUop] at h
  split at h <;> simp_all

theorem rangesOk_stepKeeps : StepKeeps fun s => s.rangesOk = true where
  turn hs _ := hs
  uop {s t i p u} hs _ hd := by
    have ht : t.rangesOk = true := by
      by_cases hu : ∃ r, u = .dec r
      · obtain ⟨r, rfl⟩ := hu
        exact doUop_dec_done hd ▸ rangesOk_writeDecoded hs r
      · obtain ⟨hrh, htc, hvRh, hvTc⟩ := doUop_keeps_readings hd (by simpa using hu)
        rw [rangesOk_iff] at hs ⊢
        rwa [hrh, htc, hvRh, hvTc]
    simpa [rangesOk_iff] using ht
  fault hs _ _ _ _ := hs
  periph {s op} hs _ := by obtain ⟨_, _, _, _, _, _, _, h⟩ := periphEffect_eq op s; rwa [h]
  read {s} off hs := by obtain ⟨_, _, h⟩ := hostRead_eq off s; rwa [h]
  issue {s w i} hs _ _ _ := by
    rw [rangesOk_iff] at hs ⊢
    cases i <;> simp_all [clearAtIssue]
  illegal w hs _ _ := hs
  reset _ _ _ := rfl

/-! ## The resting block (R42, R46) -/

theorem restOk_iff (s : State) :
    s.restOk = true ↔ (s.busy = false → s.halt = false → s.cur = 0 ∧ s.ph = 0 ∧ s.mph = 0) := by
  unfold State.restOk
  cases s.busy <;> cases s.halt <;> simp [and_assoc]

theorem restOk_stepKeeps : StepKeeps fun s => s.restOk = true where
  turn hs _ := hs
  uop {s t i p u} _ h hd := by
    rw [restOk_iff]
    intro hb _
    rcases advance_position h.prim h.uop hd with ⟨-, -, -, hbusy, -⟩ | ⟨-, -, -, -, hbusy, -⟩ | ⟨-, -, hph, hmph, -, hcur⟩
    · simp [hbusy, h.busy] at hb
    · simp [hbusy, h.busy] at hb
    · exact ⟨hcur, hph, hmph⟩
  fault _ _ _ _ _ := by simp [restOk_iff]
  periph {s op} hs _ := by obtain ⟨_, _, _, _, _, _, _, h⟩ := periphEffect_eq op s; rwa [h]
  read {s} off hs := by obtain ⟨_, _, h⟩ := hostRead_eq off s; rwa [h]
  issue _ _ _ _ := by simp [restOk_iff]
  illegal w _ _ _ := by simp [restOk_iff]
  reset _ _ _ := rfl

/-! ## The four obligations -/

/-- Settles O11: a recorded fault is consistent by itself, and nothing else writes the record but a reset. -/
theorem faultRecordStaysConsistent : Obligations.FaultRecordStaysConsistent :=
  fun _ _ => faultRecordOk_stepKeeps.step

/-- Settles O53: writes of P_CTRL are masked, and those of P_STAT touch its two bits only. -/
theorem reservedBitsStayZero : Obligations.ReservedBitsStayZero := fun _ _ => reservedOk_stepKeeps.step

/-- Settles O54: only DECRH and DECT set a reading's valid bit, with values of 14-bit raw registers. -/
theorem validReadingsStayInRange : Obligations.ValidReadingsStayInRange := fun _ _ => rangesOk_stepKeeps.step

/-- Settles O55: BUSY falls at the end of a command, which clears the three, or with HALT. -/
theorem restingBlockHoldsNoCommand : Obligations.RestingBlockHoldsNoCommand := fun _ _ => restOk_stepKeeps.step

end Sys2Proof.Machine
end

section
/-! SUPPORT. The pending operations (R37, R48, R230): the bit of each, what a completion step and a μop do to them, and
what the invariant `pendingOk` says and keeps. -/

namespace Sys2Proof.Machine

/-! ## The bits of the pending operations -/

@[simp] theorem getElem_withBit (x : Byte) {k : Nat} (hk : k < 8) (v : Bool) (j : Nat) (hj : j < 8) :
    (withBit x k v)[j] = if j = k then v else x[j] := by
  simpa only [BitVec.getLsbD_eq_getElem hj] using getLsbD_withBit x hk v j

@[simp] theorem getElem_ctrlMask (j : Nat) (hj : j < 8) : ctrlMask[j] = (j != 6) := by
  have all : ∀ j : Fin 8, ctrlMask.getLsbD j = (j.val != 6) := by decide
  simpa only [BitVec.getLsbD_eq_getElem hj] using all ⟨j, hj⟩

/-- The bit that makes a completion step pending (R230). -/
def opBit : PeriphOp → State → Bool
  | .pStart, s => s.trigger .sen
  | .pRstart, s => s.trigger .rsen
  | .pStop, s => s.trigger .pen
  | .pRx, s => s.trigger .rcen
  | .pAck, s => s.trigger .acken
  | .pTx, s => s.txBusy

theorem periphEnabled_eq (op : PeriphOp) (s : State) : periphEnabled op s = (s.en && opBit op s) := by
  cases op <;> rfl

/-- The peripheral is idle when no operation is pending (R37). -/
theorem idleP_iff (s : State) : s.idleP = true ↔ ∀ op, opBit op s = false := by
  simp only [idleP_eq, Bool.and_eq_true, Bool.not_eq_true']
  exact ⟨fun ⟨⟨⟨⟨⟨h1, h2⟩, h3⟩, h4⟩, h5⟩, h6⟩ op => by cases op <;> assumption,
    fun h => ⟨⟨⟨⟨⟨h .pStart, h .pRstart⟩, h .pStop⟩, h .pRx⟩, h .pAck⟩, h .pTx⟩⟩

theorem pendingCount_eq (s : State) :
    s.pendingCount = (opBit .pStart s).toNat + (opBit .pRstart s).toNat + (opBit .pStop s).toNat +
      (opBit .pRx s).toNat + (opBit .pAck s).toNat + (opBit .pTx s).toNat := rfl

/-- With at most one operation pending, two that are pending are one (R48). -/
theorem pending_unique {s : State} (h : s.pendingCount ≤ 1) {a b : PeriphOp} (ha : opBit a s = true)
    (hb : opBit b s = true) : a = b := by
  by_contra hab
  rw [pendingCount_eq] at h
  cases a <;> cases b <;> simp [ha, hb] at h hab <;> omega

/-- Where no operation but `op` is pending, at most one is. -/
theorem pendingCount_le_one {s : State} (op : PeriphOp) (h : ∀ a, a ≠ op → opBit a s = false) :
    s.pendingCount ≤ 1 := by
  rw [pendingCount_eq]
  cases op <;> simp [h, Bool.toNat_le]

/-- A completion step clears its own bit and no other (R230). -/
theorem opBit_periphEffect (op a : PeriphOp) (s : State) :
    opBit a (periphEffect op s) = if a = op then false else opBit a s := by
  cases op <;> cases a <;>
    simp [opBit, periphEffect, completeRx, completeTx, State.trigger, State.txBusy, Trigger.bit]

/-! ## What a μop does to the pending operations -/

/-- The completion step a trigger makes pending (R31, R230). -/
def Trigger.op : Trigger → PeriphOp
  | .sen => .pStart
  | .rsen => .pRstart
  | .pen => .pStop
  | .rcen => .pRx
  | .acken => .pAck

/-- The operation a μop starts (R44, R78). -/
def Uop.starts : Uop → Option PeriphOp
  | .set k => some k.op
  | .wdata _ => some .pTx
  | _ => none

@[simp] theorem opBit_advance (a : PeriphOp) (nP nU : Nat) (s : State) : opBit a (advance nP nU s) = opBit a s := by
  cases a <;> simp [opBit, State.trigger, State.txBusy]

theorem idleP_congr {s t : State} (h : ∀ a, opBit a t = opBit a s) : t.idleP = s.idleP := by
  rw [Bool.eq_iff_iff, idleP_iff, idleP_iff]; simp [h]

theorem pendingCount_congr {s t : State} (h : ∀ a, opBit a t = opBit a s) : t.pendingCount = s.pendingCount := by
  simp [pendingCount_eq, h]

/-- A μop that starts an operation needs an idle peripheral. -/
theorem needsIdle_of_starts {u : Uop} {op : PeriphOp} (h : u.starts = some op) : u.needsIdle = true := by
  cases u <;> simp_all [Uop.starts, Uop.needsIdle]

/-- The one value INIT writes to P_CTRL (R144). -/
theorem wctrl_value {p : Instr} {v : Byte} (h : .wctrl v ∈ uopsOf p) : v = 0x80 := by
  cases p <;> simp_all [uopsOf]

/-- A μop that needs an idle peripheral follows a HOLD, or another such μop that starts no operation. -/
theorem before_needsIdle {p : Instr} {m : Nat} {u v : Uop} (hu : (uopsOf p)[m]? = some u)
    (hv : (uopsOf p)[m + 1]? = some v) (hn : v.needsIdle = true) :
    u.starts = none ∧ (u = .hold ∨ u.needsIdle = true) := by
  have chain : (uopsOf p).IsChain fun u v => v.needsIdle = true → u.starts = none ∧ (u = .hold ∨ u.needsIdle = true) := by
    cases p <;> simp [uopsOf, Uop.needsIdle, Uop.starts]
  obtain ⟨hm, rfl⟩ := List.getElem?_eq_some_iff.1 hv
  obtain ⟨_, rfl⟩ := List.getElem?_eq_some_iff.1 hu
  exact List.isChain_iff_getElem.1 chain m hm hn

/-! ## The invariant `pendingOk` (R48) -/

theorem pendingOk_iff (s : State) :
    s.pendingOk = true ↔
      s.pendingCount ≤ 1 ∧ ∀ u, s.curUop = some u → u.needsIdle = true → s.idleP = true := by
  unfold State.pendingOk
  cases s.curUop with
  | none => simp
  | some u => cases hn : u.needsIdle <;> simp [hn]

theorem idleP_at_needsIdle {s : State} {i p : Instr} {u : Uop} (hs : s.pendingOk = true) (h : AtUop s i p u)
    (hu : u.needsIdle = true) : s.idleP = true :=
  ((pendingOk_iff s).1 hs).2 u h.curUop_eq hu

/-- A μop that needs no idle peripheral leaves P_CTRL, P_STAT and P_DATA alone. -/
theorem doUop_keeps_periph {u : Uop} {s t : State} (h : doUop u s = .done t) (hu : u.needsIdle = false) :
    t.pCtrl = s.pCtrl ∧ t.pStat = s.pStat ∧ t.pData = s.pData := by
  rcases doUop_done h with ⟨-, -, rfl⟩ | ⟨_, _, -, -, -, rfl⟩ | ⟨_, -, -, rfl⟩ | ⟨_, rfl, -⟩ | ⟨_, rfl, -⟩ | ⟨_, rfl, -⟩ |
    ⟨_, rfl, -⟩ | ⟨_, rfl, -⟩ | ⟨_, rfl, -⟩ | ⟨_, -, rfl⟩ | ⟨_, -, -, -, rfl⟩ | ⟨_, -, -, rfl⟩ | ⟨_, -, -, rfl⟩ <;>
    simp [Uop.needsIdle] at hu ⊢

/-- A P_DATA write that completes sets P_DATA and BUSY (R78). -/
theorem doUop_wdata_done {b : Byte} {s t : State} (h : doUop (.wdata b) s = .done t) :
    t = { s with pData := b, pStat := withBit s.pStat 0 true } := by
  rw [doUop_wdata] at h
  split_ifs at h
  simpa using h.symm

theorem opBit_congr {s t : State} (hc : t.pCtrl = s.pCtrl) (hst : t.pStat = s.pStat) (a : PeriphOp) :
    opBit a t = opBit a s := by
  cases a <;> simp [opBit, State.trigger, State.txBusy, hc, hst]

/-- A μop that completes starts its operation and changes no other pending bit. -/
theorem opBit_doUop {s t : State} {i p : Instr} {u : Uop} (hs : s.pendingOk = true) (h : AtUop s i p u)
    (hd : doUop u s = .done t) (a : PeriphOp) : opBit a t = (decide (u.starts = some a) || opBit a s) := by
  cases u with
  | set k =>
    obtain rfl : _ = t := by simpa [doUop_set] using hd
    cases a <;> cases k <;> simp [opBit, State.trigger, State.txBusy, Trigger.bit, Uop.starts, Trigger.op]
  | wdata b =>
    obtain rfl := doUop_wdata_done hd
    cases a <;> simp [opBit, State.trigger, State.txBusy, Uop.starts]
  | wackdt v =>
    obtain rfl : _ = t := by simpa [doUop_wackdt] using hd
    cases a <;> simp [opBit, State.trigger, State.txBusy, Trigger.bit, Uop.starts]
  | wctrl v =>
    obtain rfl := wctrl_value (List.mem_of_getElem? h.uop)
    obtain rfl : _ = t := by simpa [doUop_wctrl] using hd
    have ha := (idleP_iff s).1 (idleP_at_needsIdle hs h rfl) a
    cases a <;> simp_all [opBit, State.trigger, State.txBusy, Trigger.bit, Uop.starts]
  | rdata d =>
    obtain rfl : _ = t := by simpa [doUop_rdata] using hd
    simp [opBit_congr (s := s), Uop.starts]
  | wdiv v =>
    obtain rfl : _ = t := by simpa [doUop_wdiv] using hd
    simp [opBit_congr (s := s), Uop.starts]
  | hold | ckBus c | ckInit | dly n | asm r | dec r | fmt r =>
    obtain ⟨hc, hst, -⟩ := doUop_keeps_periph hd rfl
    simp [opBit_congr hc hst, Uop.starts]

/-- A μop that completes and starts nothing leaves `idle(P)` as it is. -/
theorem idleP_doUop {s t : State} {i p : Instr} {u : Uop} (hs : s.pendingOk = true) (h : AtUop s i p u)
    (hd : doUop u s = .done t) (hu : u.starts = none) : t.idleP = s.idleP :=
  idleP_congr fun a => by simp [opBit_doUop hs h hd a, hu]

theorem pendingCount_doUop {s t : State} {i p : Instr} {u : Uop} (hs : s.pendingOk = true) (h : AtUop s i p u)
    (hd : doUop u s = .done t) : t.pendingCount ≤ 1 := by
  cases hu : u.starts with
  | none =>
    rw [pendingCount_congr (s := s) fun a => by simp [opBit_doUop hs h hd a, hu]]
    exact ((pendingOk_iff s).1 hs).1
  | some op =>
    have none_before := (idleP_iff s).1 (idleP_at_needsIdle hs h (needsIdle_of_starts hu))
    exact pendingCount_le_one op fun a ha => by simp [opBit_doUop hs h hd a, hu, none_before, ha.symm]

theorem pendingOk_of_idleP {s : State} (h : s.idleP = true) : s.pendingOk = true :=
  (pendingOk_iff s).2 ⟨pendingCount_le_one .pTx fun a _ => (idleP_iff s).1 h a, fun _ _ _ => h⟩

/-- At the first μop of a primitive the peripheral need not be idle. -/
theorem pendingOk_at_first {s : State} {c : Config} {i q : Instr} (hm : s.mph = 0) (hq : q ∈ primsOf c i)
    (hp : s.curPrim = some q) (hcount : s.pendingCount ≤ 1) : s.pendingOk = true := by
  obtain ⟨v, hv, hn⟩ := first_uop_of_prim hq
  refine (pendingOk_iff s).2 ⟨hcount, fun u hu hu' => ?_⟩
  rw [curUop_of_curPrim hp, hm] at hu
  obtain rfl : v = u := Option.some.inj (hv.symm.trans hu)
  simp [hn] at hu'

theorem pendingOk_of_not_busy {s : State} (hb : s.busy = false) (hcount : s.pendingCount ≤ 1) : s.pendingOk = true :=
  (pendingOk_iff s).2 ⟨hcount, by simp [curUop_of_not_busy hb]⟩

/-- The one pending operation completed, the peripheral is idle (R37, R48). -/
theorem idleP_periphEffect {s : State} {op : PeriphOp} (hcount : s.pendingCount ≤ 1) (hop : opBit op s = true) :
    (periphEffect op s).idleP = true := by
  refine (idleP_iff _).2 fun a => ?_
  rw [opBit_periphEffect]
  split_ifs with ha
  · rfl
  · by_contra hb
    exact ha (pending_unique hcount (by simpa using hb) hop)

theorem pendingOk_stepKeeps : StepKeeps fun s => s.pendingOk = true where
  turn hs _ := hs
  uop {s t i p u} hs h hd := by
    have hcount : (advance (primsOf s.cfg i).length (uopsOf p).length t).pendingCount ≤ 1 := by
      rw [pendingCount_congr fun a => opBit_advance a _ _ t]; exact pendingCount_doUop hs h hd
    rcases curPrim_advance h hd with ⟨-, hm, hp⟩ | ⟨-, hm, q, hq, hp⟩ | ⟨-, -, hb⟩
    · refine (pendingOk_iff _).2 ⟨hcount, fun v hv hn => ?_⟩
      rw [curUop_of_curPrim hp, hm] at hv
      obtain ⟨hstarts, hu⟩ := before_needsIdle h.uop hv hn
      rw [idleP_congr fun a => opBit_advance a _ _ t, idleP_doUop hs h hd hstarts]
      rcases hu with rfl | hu
      · by_contra hi
        simp [doUop, hi] at hd
      · exact idleP_at_needsIdle hs h hu
    · exact pendingOk_at_first hm hq hp hcount
    · exact pendingOk_of_not_busy hb hcount
  fault hs _ _ _ _ := pendingOk_of_not_busy rfl ((pendingOk_iff _).1 hs).1
  periph {s op} hs he := by
    rw [periphEnabled_eq, Bool.and_eq_true] at he
    exact pendingOk_of_idleP (idleP_periphEffect ((pendingOk_iff s).1 hs).1 he.2)
  read {s} off hs := by obtain ⟨_, _, h⟩ := hostRead_eq off s; rwa [h]
  issue {s w i} hs _ hh hd := by
    obtain ⟨hm, q, hq, hp⟩ := curPrim_issued hh hd
    refine pendingOk_at_first hm hq hp ?_
    rw [pendingCount_congr (s := s) (opBit_congr (by simp) (by simp))]
    exact ((pendingOk_iff s).1 hs).1
  illegal w hs _ _ := pendingOk_of_not_busy rfl ((pendingOk_iff _).1 hs).1
  reset {s u} _ hu _ := pendingOk_of_not_busy rfl ((pendingOk_iff u).1 hu).1

end Sys2Proof.Machine
end

section
/-! SUPPORT. The obligations about the peripheral's and the driver's writes of the pending bits, and about a HOLD
(10_state.md R38, R45, 60_exceptions.md R233, R234). -/

namespace Sys2Proof.Machine

/-- The trigger bits of P_CTRL are the bits of the pending operations (R31). -/
theorem trigger_bit_is_opBit {k : Nat} (hk : k < 5) : ∃ a, ∀ s : State, s.pCtrl.getLsbD k = opBit a s := by
  interval_cases k
  exacts [⟨.pStart, fun _ => rfl⟩, ⟨.pRstart, fun _ => rfl⟩, ⟨.pStop, fun _ => rfl⟩, ⟨.pRx, fun _ => rfl⟩,
    ⟨.pAck, fun _ => rfl⟩]

/-- A completion step sets no pending bit. -/
theorem opBit_of_periphEffect {op a : PeriphOp} {s : State} (h : opBit a (periphEffect op s) = true) :
    opBit a s = true := by
  rw [opBit_periphEffect] at h
  split_ifs at h
  exact h

/-- A completion step leaves EN alone (R38). -/
@[simp] theorem periphEffect_en (op : PeriphOp) (s : State) : (periphEffect op s).en = s.en := by
  cases op <;> simp [periphEffect, completeRx, completeTx, State.en, Trigger.bit]

/-- A completion step leaves ACKDT alone (R38). -/
@[simp] theorem periphEffect_ackdt (op : PeriphOp) (s : State) : (periphEffect op s).ackdt = s.ackdt := by
  cases op <;> simp [periphEffect, completeRx, completeTx, State.ackdt, Trigger.bit]

/-- Settles O40: a completion step clears its own bit, and draws and logs beside that. -/
theorem peripheralSetsNoTrigger : Obligations.PeripheralSetsNoTrigger := by
  intro s op
  unfold periphTurn
  split_ifs with he
  · refine ⟨fun k hk h => ?_, opBit_of_periphEffect (a := .pTx), periphEffect_en op s, periphEffect_ackdt op s, ?_⟩
    · obtain ⟨a, ha⟩ := trigger_bit_is_opBit hk
      rw [ha] at h ⊢
      exact opBit_of_periphEffect h
    · obtain ⟨_, _, _, _, _, _, _, h⟩ := periphEffect_eq op s
      rw [h]
  · exact ⟨fun _ _ h => h, fun h => h, rfl, rfl, rfl⟩

/-- Settles O41: a μop that completes changes a pending bit only by starting its operation. -/
theorem driverClearsNoTrigger : Obligations.DriverClearsNoTrigger := by
  intro s t i k hs hr h hk hbit
  obtain ⟨hb, hh, hc⟩ := running_eq_some.1 hr
  rw [exec_eq_driverStep] at h
  obtain ⟨p, u, hp, hu, ⟨s', hd, rfl⟩ | ⟨-, -, rfl⟩ | ⟨c, -, rfl⟩⟩ := driverStep_next h
  · obtain ⟨a, ha⟩ := trigger_bit_is_opBit hk
    rw [ha] at hbit ⊢
    simp [opBit_doUop hs ⟨hb, hh, hc, hp, hu⟩ hd, hbit]
  · exact hbit
  · exact hbit

/-! ## A HOLD (R45, R234) -/

/-- With EN = 1, a peripheral that is not idle has a completion step enabled (R37, R230). -/
theorem enabledOp_of_not_idleP {s : State} (hi : s.idleP = false) (he : s.en = true) : ∃ op, enabledOp s = some op := by
  have hb : ∃ a, opBit a s = true := by
    by_contra h
    simp [(idleP_iff s).2 (by simpa using h)] at hi
  obtain ⟨a, ha⟩ := hb
  rw [← Option.isSome_iff_exists, enabledOp, List.find?_isSome]
  exact ⟨a, by cases a <;> simp, by simp [periphEnabled_eq, he, ha]⟩

/-- A HOLD whose condition is false leaves the state as it is (R45). -/
theorem driverTurn_holds {s : State} (hu : s.curUop = some .hold) (hi : s.idleP = false) : driverTurn s = .next s := by
  obtain ⟨i, p, h⟩ := atUop_of_curUop hu
  rw [driverTurn_at h, doUop_hold_busy hi, settle_holds]

/-- A state that steps to itself stays as it is in every run. -/
theorem run_of_fixed {s : State} (h : step s = .next s) : ∀ k, Sys2Proof.core.run k s = .next s
  | 0 => rfl
  | k + 1 => by rw [run_succ_next h]; exact run_of_fixed h k

/-- Settles O44: the fair peripheral takes the one pending step, an unfair one is never scheduled. -/
theorem holdIsLiftedOnlyByTheFairPeripheral : Obligations.HoldIsLiftedOnlyByTheFairPeripheral := by
  intro s hs hts hu hi he
  obtain ⟨op, hop⟩ := enabledOp_of_not_idleP hi he
  have henabled := enabledOp_some hop
  constructor
  · intro hfair
    have hbit : opBit op s = true := by simpa [periphEnabled_eq, he] using henabled
    obtain ⟨hph, hmph, hbusy, -⟩ := periphEffect_keeps_control op s
    refine ⟨periphEffect op s, ?_, idleP_periphEffect ((pendingOk_iff s).1 hs).1 hbit, hph, hmph, hbusy⟩
    simp [step, hts, unnamedStep, hop, hfair, periphTurn, henabled]
  · intro hunfair
    exact run_of_fixed (by simp [step, hts, unnamedStep, hop, hunfair, driverTurn_holds hu hi])

end Sys2Proof.Machine
end

section
/-! SUPPORT. The driver's position (10_state.md R43, R47, R130): where it stands, every step keeps it there or lets it
end, and no step stops the model. -/

namespace Sys2Proof.Machine

/-- What `positionOk` says of a busy block. -/
theorem positionOk_iff (s : State) :
    s.positionOk = true ↔ (s.busy = true →
      ∃ i p u, AtUop s i p u ∧ (checksEnable p = true → s.mph = 0 ∨ s.en = true)) := by
  constructor
  · intro h hb
    simp only [State.positionOk, hb, Bool.not_true, Bool.false_or, Bool.and_eq_true] at h
    obtain ⟨⟨-, hu⟩, hen⟩ := h
    obtain ⟨u, hu⟩ := Option.isSome_iff_exists.1 hu
    obtain ⟨i, p, hat⟩ := atUop_of_curUop hu
    refine ⟨i, p, u, hat, fun hc => ?_⟩
    simpa [hat.curPrim_eq, hc] using hen
  · intro h
    cases hb : s.busy with
    | false => simp [State.positionOk, hb]
    | true =>
      obtain ⟨i, p, u, hat, hen⟩ := h hb
      simp only [State.positionOk, hb, hat.halt, hat.curUop_eq, hat.curPrim_eq, Bool.not_false, Bool.not_true,
        Option.isSome_some, Bool.and_self, Bool.true_and, Bool.false_or]
      cases hc : checksEnable p with
      | false => rfl
      | true => simpa using hen hc

theorem positionOk_of_not_busy {s : State} (h : s.busy = false) : s.positionOk = true := by
  simp [positionOk_iff, h]

/-- The first μop of a primitive whose CK checks EN is that CK (R130). -/
theorem first_uop_of_checksEnable {p : Instr} (hp : checksEnable p = true) {u : Uop} (hu : (uopsOf p)[0]? = some u) :
    ∃ c, u = .ckBus c := by
  cases p <;> simp_all [checksEnable, uopsOf, eq_comm]

/-- A μop that completes never clears EN (R144). -/
theorem en_doUop {s t : State} {p : Instr} {u : Uop} (hu : u ∈ uopsOf p) (hd : doUop u s = .done t) (he : s.en = true) :
    t.en = true := by
  cases u with
  | set k =>
    obtain rfl : _ = t := by simpa [doUop_set] using hd
    cases k <;> simpa [State.en, Trigger.bit] using he
  | wctrl v =>
    obtain rfl : _ = t := by simpa [doUop_wctrl] using hd
    simp [State.en, wctrl_value hu]
  | wackdt v =>
    obtain rfl : _ = t := by simpa [doUop_wackdt] using hd
    simpa [State.en] using he
  | wdata b =>
    obtain rfl := doUop_wdata_done hd
    exact he
  | rdata d =>
    obtain rfl : _ = t := by simpa [doUop_rdata] using hd
    simpa [State.en] using he
  | wdiv v =>
    obtain rfl : _ = t := by simpa [doUop_wdiv] using hd
    exact he
  | hold | ckBus c | ckInit | dly n | asm r | dec r | fmt r =>
    rwa [State.en, (doUop_keeps_periph hd rfl).1]

/-- Past a μop that completes, EN is 1 in a primitive whose CK checks it (R130). -/
theorem en_after_uop {s t : State} {i p : Instr} {u : Uop} (h : AtUop s i p u) (hc : checksEnable p = true)
    (hs : s.mph = 0 ∨ s.en = true) (hd : doUop u s = .done t) : t.en = true := by
  refine en_doUop (List.mem_of_getElem? h.uop) hd (hs.elim (fun hm => ?_) id)
  obtain ⟨c, rfl⟩ := first_uop_of_checksEnable hc (u := u) (by rw [← h.uop, hm]; rfl)
  by_contra he
  simp [doUop_ckBus, he] at hd

theorem positionOk_at_first {s : State} {c : Config} {i q : Instr} (hm : s.mph = 0) (hq : q ∈ primsOf c i)
    (hp : s.curPrim = some q) : s.positionOk = true := by
  obtain ⟨v, hv, -⟩ := first_uop_of_prim hq
  obtain ⟨j, p, h⟩ := atUop_of_curUop (s := s) (u := v) (by rw [curUop_of_curPrim hp, hm]; exact hv)
  exact (positionOk_iff s).2 fun _ => ⟨j, p, v, h, fun _ => .inl hm⟩

theorem positionOk_stepKeeps : StepKeeps fun s => s.positionOk = true where
  turn hs _ := hs
  uop {s t i p u} hs h hd := by
    rcases curPrim_advance h hd with ⟨hlt, hm, hp⟩ | ⟨-, hm, q, hq, hp⟩ | ⟨-, -, hb⟩
    · obtain ⟨j, q, w, hat, hen⟩ := (positionOk_iff s).1 hs h.busy
      obtain rfl : q = p := Option.some.inj (hat.curPrim_eq.symm.trans h.curPrim_eq)
      obtain ⟨k, q', h'⟩ := atUop_of_curUop (by rw [curUop_of_curPrim hp, hm]; exact List.getElem?_eq_getElem hlt)
      obtain rfl : q' = q := Option.some.inj (h'.curPrim_eq.symm.trans hp)
      refine (positionOk_iff _).2 fun _ => ⟨k, q', _, h', fun hc => .inr ?_⟩
      simpa [State.en] using en_after_uop h hc (hen hc) hd
    · exact positionOk_at_first hm hq hp
    · exact positionOk_of_not_busy hb
  fault _ _ _ _ _ := positionOk_of_not_busy rfl
  periph {s op} hs _ := by
    have hen := periphEffect_en op s
    obtain ⟨_, _, _, _, _, _, _, h⟩ := periphEffect_eq op s
    rw [h] at hen ⊢
    rw [positionOk_iff] at hs ⊢
    intro hb
    obtain ⟨i, p, u, hat, hc⟩ := hs hb
    exact ⟨i, p, u, ⟨hat.busy, hat.halt, hat.command, hat.prim, hat.uop⟩, fun hp => (hc hp).imp id hen.trans⟩
  read {s} off hs := by obtain ⟨_, _, h⟩ := hostRead_eq off s; rwa [h]
  issue _ _ hh hd := by
    obtain ⟨hm, q, hq, hp⟩ := curPrim_issued hh hd
    exact positionOk_at_first hm hq hp
  illegal w _ _ _ := positionOk_of_not_busy rfl
  reset _ _ _ := positionOk_of_not_busy rfl

/-! ## No step stops the model (R47, R78) -/

/-- At its position the driver always has a next state: a P_DATA write comes past a CK, so EN is 1 (R78). -/
theorem driverTurn_progress {s : State} (hs : s.positionOk = true) : ∃ t, driverTurn s = .next t := by
  cases hb : s.busy with
  | false => exact ⟨s, by simp [driverTurn, hb]⟩
  | true =>
    obtain ⟨i, p, u, h, hen⟩ := (positionOk_iff s).1 hs hb
    rw [driverTurn_at h]
    cases hd : doUop u s with
    | done t => exact ⟨_, rfl⟩
    | holds => exact ⟨_, rfl⟩
    | raises c => exact ⟨_, rfl⟩
    | stops f =>
      obtain ⟨⟨b, rfl⟩, he, -⟩ := doUop_stops hd
      have hc : checksEnable p = true := by
        have hmem := List.mem_of_getElem? h.uop
        cases p <;> simp_all [uopsOf, checksEnable]
      rcases hen hc with hm | he'
      · obtain ⟨c, hck⟩ := first_uop_of_checksEnable hc (u := .wdata b) (by rw [← h.uop, hm]; rfl)
        cases hck
      · simp [he] at he'

theorem unnamedStep_progress {s : State} (hs : s.positionOk = true) : ∃ t, unnamedStep s = .next t := by
  unfold unnamedStep
  split
  · split_ifs
    · exact ⟨_, rfl⟩
    · exact driverTurn_progress hs
  · exact driverTurn_progress hs

theorem takeTurn_progress {s : State} {τ : Turn} (hs : s.positionOk = true) (hτ : τ.permitted = true) :
    ∃ t, takeTurn τ s = .next t := by
  cases τ with
  | driver => exact driverTurn_progress hs
  | periph _ | read _ | write _ _ | consume | reset => exact ⟨_, rfl⟩
  | partialAccess | peripheralAccess | otherMaster => cases hτ

/-- From the invariant, with a permitted turn next, the step answers a next state. -/
theorem step_progress {s : State} (hs : s.positionOk = true) (hτ : s.turns.all (fun t => t.permitted) = true) :
    ∃ t, step s = .next t := by
  unfold step
  split
  · exact unnamedStep_progress hs
  · rename_i τ ts hts
    split_ifs
    · exact unnamedStep_progress hs
    · rw [hts, List.all_cons, Bool.and_eq_true] at hτ
      exact takeTurn_progress (s := { s with turns := ts }) hs hτ.1

/-- Settles O52: the position invariant rules out the model's stops and is kept, and no refused turn comes up. -/
theorem noStepStopsTheMachine : Obligations.NoStepStopsTheMachine := by
  intro s hs hτ
  obtain ⟨t, h⟩ := step_progress hs hτ
  exact ⟨t, h, positionOk_stepKeeps.step hs h, (turnsAll_stepKeeps _).step hτ h⟩

end Sys2Proof.Machine
end

section
/-! SUPPORT. The framing on the bus (40_bus_phases.md R142, R147, R148): what each agent's step does to the events logged,
pending and owed, and that they stay a legal framing which ends where TXN says. -/

namespace Sys2Proof.Machine

/-! ## The framing automaton -/

theorem lineAfter_append (l : Line) (xs ys : List BusEvent) :
    lineAfter l (xs ++ ys) = (lineAfter l xs).bind fun m => lineAfter m ys := by
  induction xs generalizing l with
  | nil => rfl
  | cons e xs ih => cases h : lineNext l e <;> simp [lineAfter, h, ih]

/-- The framing so far: the events logged, then those pending, then those the running primitive owes. -/
def State.framing (s : State) : List BusEvent := s.busLog ++ s.pendingEvents ++ eventsOf s.ackdt s.owedUops

theorem framingOk_iff (s : State) :
    s.framingOk = true ↔ s.pendingOk = true ∧ s.turns.all (fun t => !t.isReset) = true ∧
      lineAfter .free s.framing = some (lineOf s.txn) := by
  simp [State.framingOk, State.framing, and_assoc]

/-! ## The pending events -/

/-- The event a pending operation stands for in the framing. -/
def opEvent : PeriphOp → State → BusEvent
  | .pStart, _ => .start
  | .pRstart, _ => .rstart
  | .pStop, _ => .stop
  | .pRx, _ => .rx 0
  | .pAck, s => .ackout s.ackdt
  | .pTx, s => .tx s.pData false

theorem pendingEvents_eq (s : State) :
    s.pendingEvents = pendingEvent (opBit .pStart s) .start (pendingEvent (opBit .pRstart s) .rstart
      (pendingEvent (opBit .pStop s) .stop (pendingEvent (opBit .pRx s) (.rx 0)
        (pendingEvent (opBit .pAck s) (.ackout s.ackdt) (pendingEvent (opBit .pTx s) (.tx s.pData false) []))))) := rfl

theorem pendingEvents_of_idleP {s : State} (h : s.idleP = true) : s.pendingEvents = [] := by
  simp [pendingEvents_eq, (idleP_iff s).1 h, pendingEvent]

theorem pendingEvents_of_only {s : State} {op : PeriphOp} (hop : opBit op s = true)
    (h : ∀ a, a ≠ op → opBit a s = false) : s.pendingEvents = [opEvent op s] := by
  rw [pendingEvents_eq]
  cases op <;> simp [hop, h, pendingEvent, opEvent]

theorem pendingEvents_congr {s t : State} (hc : t.pCtrl = s.pCtrl) (hst : t.pStat = s.pStat) (hd : t.pData = s.pData) :
    t.pendingEvents = s.pendingEvents := by
  have hk : t.ackdt = s.ackdt := by simp [State.ackdt, hc]
  simp [pendingEvents_eq, opBit_congr hc hst, hd, hk]

/-- The framing takes the logged entry as it takes the pending event: neither the received byte nor the slave's
acknowledge matters to it. -/
theorem lineNext_busEntry (l : Line) (op : PeriphOp) (s : State) :
    lineNext l (busEntry op s) = lineNext l (opEvent op s) := by
  cases op <;> cases l <;> rfl

/-! ## The owed events -/

/-- The event a μop starts, ACKDT being `k`. -/
def Uop.started (k : Bool) : Uop → List BusEvent
  | .set t => [t.event k]
  | .wdata b => [.tx b false]
  | _ => []

/-- ACKDT as the framing sees it after a μop, `k` before. -/
def Uop.ackdtAfter (k : Bool) : Uop → Bool
  | .wackdt v => v
  | _ => k

/-- The two CKs that move TXN (R130, R144). -/
def Uop.movesTxn : Uop → Bool
  | .ckBus _ => true
  | .ckInit => true
  | _ => false

theorem eventsOf_cons (k : Bool) (u : Uop) (us : List Uop) :
    eventsOf k (u :: us) = u.started k ++ eventsOf (u.ackdtAfter k) us := by
  cases u <;> rfl

/-- A check that moves TXN is owed nothing of; any other first μop is its primitive's only one, and starts nothing. -/
theorem eventsOf_owedUops {s : State} {i p : Instr} {u : Uop} (h : AtUop s i p u) (hu : u.movesTxn = false) (k : Bool) :
    eventsOf k s.owedUops = eventsOf k (u :: (uopsOf p).drop (s.mph.toNat + 1)) := by
  obtain ⟨hlt, hget⟩ := List.getElem?_eq_some_iff.1 h.uop
  rw [h.owedUops_eq]
  split_ifs with hm
  · have alone : ∀ v, (uopsOf p)[0]? = some v → v.movesTxn = false → eventsOf k (v :: (uopsOf p).drop 1) = [] := by
      cases p <;> simp [uopsOf, Uop.movesTxn, eventsOf]
    have hu0 : (uopsOf p)[0]? = some u := by rw [← h.uop, hm]; rfl
    rw [hm]; exact (alone u hu0 hu).symm
  · rw [← hget, List.drop_eq_getElem_cons hlt]

/-- After the advance the driver owes the μops that follow the one completed. -/
theorem owedUops_advance {s t : State} {i p : Instr} {u : Uop} (h : AtUop s i p u) (hd : doUop u s = .done t) :
    (advance (primsOf s.cfg i).length (uopsOf p).length t).owedUops = (uopsOf p).drop (s.mph.toNat + 1) := by
  rcases curPrim_advance h hd with ⟨-, hm, hp⟩ | ⟨hlast, hm, -⟩ | ⟨hlast, hm, -⟩
  · have hne : (advance (primsOf s.cfg i).length (uopsOf p).length t).mph ≠ 0 := fun h0 => by rw [h0] at hm; cases hm
    simp only [State.owedUops, hp, if_neg hne, hm]
  · rw [owedUops_of_mph_zero hm, hlast, List.drop_length]
  · rw [owedUops_of_mph_zero hm, hlast, List.drop_length]

/-- The events a bus command puts on the bus, its received byte and the slave's acknowledge being of no account. -/
def BusCmd.events : BusCmd → List BusEvent
  | .start => [.start]
  | .rstart => [.rstart]
  | .stop => [.stop]
  | .send b => [.tx b false]
  | .recv a => [.rx 0, .ackout (ackValue a)]
  | .init => []

/-- TXN moves by the transaction table as the bus moves by the command's events (R131, R142). -/
theorem lineAfter_events {c : BusCmd} {n m : Txn} (h : txnTable c n = .ok m) :
    lineAfter (lineOf n) c.events = some (lineOf m) := by
  cases c with
  | start | rstart | stop | init => cases n <;> cases h <;> rfl
  | send b => cases hb : directionIsRead b <;> cases n <;> cases h <;> simp [BusCmd.events, lineAfter, lineNext, lineOf, hb]
  | recv a => cases a <;> cases n <;> cases h <;> rfl

/-- Past its CK a primitive owes its command's events. -/
theorem eventsOf_after_ckBus {p : Instr} {c : BusCmd} (hp : (uopsOf p)[0]? = some (.ckBus c)) (k : Bool) :
    eventsOf k ((uopsOf p).drop 1) = c.events := by
  cases p <;> simp [uopsOf] at hp <;> subst hp <;> rfl

theorem eventsOf_after_ckInit {p : Instr} (hp : (uopsOf p)[0]? = some .ckInit) (k : Bool) :
    eventsOf k ((uopsOf p).drop 1) = BusCmd.init.events := by
  cases p <;> simp [uopsOf] at hp
  rfl

/-! ## A μop -/

/-- Only a CK moves TXN. -/
theorem doUop_keeps_txn {u : Uop} {s t : State} (h : doUop u s = .done t) (hu : u.movesTxn = false) : t.txn = s.txn := by
  rcases doUop_done h with ⟨-, -, rfl⟩ | ⟨_, _, rfl, -⟩ | ⟨_, rfl, -⟩ | ⟨_, -, rfl⟩ | ⟨_, -, -, rfl⟩ | ⟨_, -, rfl⟩ |
    ⟨_, -, rfl⟩ | ⟨_, -, rfl⟩ | ⟨_, -, rfl⟩ | ⟨_, -, rfl⟩ | ⟨_, -, -, -, rfl⟩ | ⟨_, -, -, rfl⟩ | ⟨_, -, -, rfl⟩ <;>
    simp [Uop.movesTxn] at hu ⊢

/-- A CK moves TXN by the table, and its primitive then owes the command's events (R131). -/
theorem doUop_moves_txn {u : Uop} {s t : State} (h : doUop u s = .done t) (hu : u.movesTxn = true) :
    ∃ c, txnTable c s.txn = .ok t.txn ∧
      ∀ {p : Instr} (k), (uopsOf p)[0]? = some u → eventsOf k (u :: (uopsOf p).drop 1) = c.events := by
  have hdone := doUop_done h
  cases u with
  | ckBus c =>
    obtain ⟨-, n, htable, rfl⟩ : s.en = true ∧ ∃ n, txnTable c s.txn = .ok n ∧ t = ckClears c { s with txn := n } := by
      simpa using hdone
    exact ⟨c, by simpa using htable, fun k hp => eventsOf_after_ckBus hp k⟩
  | ckInit =>
    obtain ⟨n, htable, rfl⟩ : ∃ n, txnTable .init s.txn = .ok n ∧ t = { s with txn := n } := by simpa using hdone
    exact ⟨.init, htable, fun k hp => eventsOf_after_ckInit hp k⟩
  | hold | set k | wdata b | rdata d | wackdt v | wdiv v | wctrl v | dly n | asm r | dec r | fmt r => cases hu

/-- WCTRL ends its primitive. -/
theorem wctrl_is_last {p : Instr} {m : Nat} {v : Byte} (h : (uopsOf p)[m]? = some (.wctrl v)) :
    (uopsOf p).drop (m + 1) = [] := by
  have chain : (uopsOf p).IsChain fun u _ => ∀ v, u ≠ .wctrl v := by cases p <;> simp [uopsOf]
  obtain ⟨hm, hget⟩ := List.getElem?_eq_some_iff.1 h
  rw [List.drop_eq_nil_iff]
  by_contra hlt
  exact List.isChain_iff_getElem.1 chain m (by omega) v hget

/-- A μop that completes leaves ACKDT as the framing sees it; the WCTRL that clears it is followed by no event. -/
theorem eventsOf_ackdt_doUop {s t : State} {i p : Instr} {u : Uop} (h : AtUop s i p u) (hd : doUop u s = .done t) :
    eventsOf t.ackdt ((uopsOf p).drop (s.mph.toNat + 1)) =
      eventsOf (u.ackdtAfter s.ackdt) ((uopsOf p).drop (s.mph.toNat + 1)) := by
  cases u with
  | wctrl v => rw [wctrl_is_last h.uop]; rfl
  | set k =>
    obtain rfl : _ = t := by simpa [doUop_set] using hd
    cases k <;> simp [State.ackdt, Uop.ackdtAfter, Trigger.bit]
  | wackdt v =>
    obtain rfl : _ = t := by simpa [doUop_wackdt] using hd
    simp [State.ackdt, Uop.ackdtAfter]
  | wdata b =>
    obtain rfl := doUop_wdata_done hd
    rfl
  | rdata d =>
    obtain rfl : _ = t := by simpa [doUop_rdata] using hd
    simp [State.ackdt, Uop.ackdtAfter]
  | wdiv v =>
    obtain rfl : _ = t := by simpa [doUop_wdiv] using hd
    rfl
  | hold | ckBus c | ckInit | dly n | asm r | dec r | fmt r =>
    rw [State.ackdt, (doUop_keeps_periph hd rfl).1]; rfl

/-- The event of the operation a μop started. -/
theorem opEvent_doUop {u : Uop} {s t : State} {op : PeriphOp} (hd : doUop u s = .done t) (hu : u.starts = some op) :
    [opEvent op t] = u.started s.ackdt := by
  cases u with
  | set k =>
    obtain rfl : _ = t := by simpa [doUop_set] using hd
    obtain rfl : k.op = op := Option.some.inj hu
    cases k <;> simp [opEvent, Trigger.op, Uop.started, Trigger.event, State.ackdt, Trigger.bit]
  | wdata b =>
    obtain rfl := doUop_wdata_done hd
    obtain rfl : .pTx = op := Option.some.inj hu
    rfl
  | hold | ckBus c | ckInit | rdata d | wackdt v | wdiv v | wctrl v | dly n | asm r | dec r | fmt r => cases hu

/-- A μop that completes makes the event it starts pending. -/
theorem pendingEvents_doUop {s t : State} {i p : Instr} {u : Uop} (hs : s.pendingOk = true) (h : AtUop s i p u)
    (hd : doUop u s = .done t) : t.pendingEvents = s.pendingEvents ++ u.started s.ackdt := by
  cases hu : u.starts with
  | some op =>
    have hidle := idleP_at_needsIdle hs h (needsIdle_of_starts hu)
    have hbits := (idleP_iff s).1 hidle
    rw [pendingEvents_of_idleP hidle, List.nil_append, ← opEvent_doUop hd hu]
    exact pendingEvents_of_only (by simp [opBit_doUop hs h hd, hu])
      fun a ha => by simp [opBit_doUop hs h hd, hu, hbits, ha.symm]
  | none =>
    have hstarted : u.started s.ackdt = [] := by cases u <;> simp_all [Uop.starts, Uop.started]
    rw [hstarted, List.append_nil]
    cases hn : u.needsIdle with
    | true =>
      have hidle := idleP_at_needsIdle hs h hn
      rw [pendingEvents_of_idleP hidle, pendingEvents_of_idleP ((idleP_doUop hs h hd hu).trans hidle)]
    | false =>
      obtain ⟨hc, hst, hdata⟩ := doUop_keeps_periph hd hn
      exact pendingEvents_congr hc hst hdata

/-- A μop that completes turns the first owed event, if it starts one, into a pending one. -/
theorem framing_advance {s t : State} {i p : Instr} {u : Uop} (hs : s.pendingOk = true) (h : AtUop s i p u)
    (hd : doUop u s = .done t) :
    (advance (primsOf s.cfg i).length (uopsOf p).length t).framing =
      s.busLog ++ s.pendingEvents ++ eventsOf s.ackdt (u :: (uopsOf p).drop (s.mph.toNat + 1)) := by
  obtain ⟨-, -, -, -, -, -, -, -, hlog, -⟩ := doUop_keeps_control hd
  rw [State.framing, owedUops_advance h hd, eventsOf_cons, ← eventsOf_ackdt_doUop h hd,
    pendingEvents_congr (s := t) (by simp) (by simp) (by simp), pendingEvents_doUop hs h hd]
  simp [hlog, State.ackdt]

/-- A μop that completes keeps the framing at the place of TXN. -/
theorem lineAfter_framing_advance {s t : State} {i p : Instr} {u : Uop} (hs : s.pendingOk = true)
    (hline : lineAfter .free s.framing = some (lineOf s.txn)) (h : AtUop s i p u) (hd : doUop u s = .done t) :
    lineAfter .free (advance (primsOf s.cfg i).length (uopsOf p).length t).framing = some (lineOf t.txn) := by
  rw [framing_advance hs h hd]
  cases hu : u.movesTxn with
  | false => rwa [doUop_keeps_txn hd hu, ← eventsOf_owedUops h hu]
  | true =>
    have hm : s.mph = 0 := BitVec.eq_of_toNat_eq (check_stands_first h.uop (by cases u <;> simp_all [Uop.movesTxn, Uop.checks]))
    have hu0 : (uopsOf p)[0]? = some u := by rw [← h.uop, hm]; rfl
    rw [State.framing, owedUops_of_mph_zero hm, eventsOf, List.append_nil] at hline
    rw [lineAfter_append, hline, Option.bind_some, hm]
    obtain ⟨c, htable, hevents⟩ := doUop_moves_txn hd hu
    exact (congrArg _ (hevents s.ackdt hu0)).trans (lineAfter_events htable)

/-! ## The invariant -/

/-- A completion step logs the one pending event. -/
theorem lineAfter_framing_periphEffect {s : State} {op : PeriphOp} (hcount : s.pendingCount ≤ 1)
    (hop : opBit op s = true) (l : Line) : lineAfter l (periphEffect op s).framing = lineAfter l s.framing := by
  have howed : (periphEffect op s).owedUops = s.owedUops := by
    obtain ⟨_, _, _, _, _, _, _, h⟩ := periphEffect_eq op s
    rw [h]; rfl
  have hpending : s.pendingEvents = [opEvent op s] := pendingEvents_of_only hop fun a ha => by
    by_contra hb
    exact ha (pending_unique hcount (by simpa using hb) hop)
  simp [State.framing, howed, hpending, pendingEvents_of_idleP (idleP_periphEffect hcount hop), periphEffect_busLog,
    lineAfter_append, lineAfter, lineNext_busEntry]

/-- A step that owes nothing before and after it, and leaves the bus and BUSLOG alone, leaves the framing. -/
theorem framing_congr {s t : State} (hs : s.owedUops = []) (ht : t.owedUops = []) (hlog : t.busLog = s.busLog)
    (hc : t.pCtrl = s.pCtrl) (hst : t.pStat = s.pStat) (hd : t.pData = s.pData) : t.framing = s.framing := by
  simp [State.framing, hs, ht, hlog, pendingEvents_congr hc hst hd, eventsOf]

theorem framingOk_stepKeeps : StepKeeps fun s => s.framingOk = true where
  turn {s τ ts} hs hts := by
    obtain ⟨hpending, hturns, hline⟩ := (framingOk_iff s).1 hs
    exact (framingOk_iff _).2 ⟨hpending, (turnsAll_stepKeeps _).turn hturns hts, hline⟩
  uop {s t i p u} hs h hd := by
    obtain ⟨hpending, hturns, hline⟩ := (framingOk_iff s).1 hs
    refine (framingOk_iff _).2 ⟨pendingOk_stepKeeps.uop hpending h hd, (turnsAll_stepKeeps _).uop hturns h hd, ?_⟩
    rw [advance_txn]
    exact lineAfter_framing_advance hpending hline h hd
  fault {s c} hs hb hh howed hc := by
    obtain ⟨hpending, hturns, hline⟩ := (framingOk_iff s).1 hs
    refine (framingOk_iff _).2 ⟨pendingOk_stepKeeps.fault hpending hb hh howed hc, hturns, ?_⟩
    rwa [framing_congr (t := raiseFault c s) howed (owedUops_of_curPrim_none (curPrim_of_not_busy rfl)) rfl rfl rfl rfl]
  periph {s op} hs he := by
    obtain ⟨hpending, hturns, hline⟩ := (framingOk_iff s).1 hs
    obtain ⟨-, -, -, -, -, -, -, htxn, -⟩ := periphEffect_keeps_control op s
    rw [periphEnabled_eq, Bool.and_eq_true] at he
    refine (framingOk_iff _).2 ⟨pendingOk_stepKeeps.periph hpending (by simpa [periphEnabled_eq] using he),
      (turnsAll_stepKeeps _).periph hturns (by simpa [periphEnabled_eq] using he), ?_⟩
    rwa [lineAfter_framing_periphEffect ((pendingOk_iff s).1 hpending).1 he.2, htxn]
  read {s} off hs := by obtain ⟨_, _, h⟩ := hostRead_eq off s; rwa [h]
  issue {s w i} hs hb hh hd := by
    obtain ⟨hpending, hturns, hline⟩ := (framingOk_iff s).1 hs
    obtain ⟨hm, -⟩ := curPrim_issued hh hd
    refine (framingOk_iff _).2 ⟨pendingOk_stepKeeps.issue hpending hb hh hd,
      (turnsAll_stepKeeps _).issue hturns hb hh hd, ?_⟩
    rw [framing_congr (owedUops_of_curPrim_none (curPrim_of_not_busy hb)) (owedUops_of_mph_zero hm)] <;> simp [hline]
  illegal {s} w hs hb hh := by
    obtain ⟨hpending, hturns, hline⟩ := (framingOk_iff s).1 hs
    refine (framingOk_iff _).2 ⟨pendingOk_stepKeeps.illegal w hpending hb hh, hturns, ?_⟩
    rwa [framing_congr (s := s) (t := raiseFault .illegal (latch w s)) (owedUops_of_curPrim_none (curPrim_of_not_busy hb))
      (owedUops_of_curPrim_none (curPrim_of_not_busy rfl)) rfl rfl rfl rfl]
  reset {s u} hs _ hreset := by
    obtain ⟨-, hturns, -⟩ := (framingOk_iff s).1 hs
    obtain ⟨ts, hts⟩ := List.head?_eq_some_iff.1 hreset
    simp [hts, Turn.isReset] at hturns

/-- Settles O51: each agent's step keeps the framing of the events logged, pending and owed, and BUSLOG is where it begins. -/
theorem busFramingStaysLegal : Obligations.BusFramingStaysLegal := by
  intro s t hs h
  have ht := framingOk_stepKeeps.step hs h
  obtain ⟨-, -, hline⟩ := (framingOk_iff t).1 ht
  refine ⟨ht, ?_⟩
  rw [State.framing, List.append_assoc, lineAfter_append] at hline
  obtain ⟨l, hl, -⟩ := Option.bind_eq_some_iff.1 hline
  simp [hl]

end Sys2Proof.Machine
end

section
/-! SUPPORT. The obligations about the phase counter, BUSLOG, OUT, ELAPSED_MS and P_DIV (10_state.md R34, R46, R52 to R54,
60_exceptions.md R232). -/

namespace Sys2Proof.Machine

/-! ## The phase counter (R46) -/

/-- Settles O46: a μop that completes takes the advance, a HOLD and a fault take none. -/
theorem phaseCounterOnlyAdvances : Obligations.PhaseCounterOnlyAdvances := by
  intro i p s t hp h
  rw [exec_eq_driverStep] at h
  obtain ⟨q, u, hq, hu, h⟩ := driverStep_next h
  obtain rfl : p = q := Option.some.inj (hp.symm.trans hq)
  rcases h with ⟨s', hd, rfl⟩ | ⟨rfl, hi, rfl⟩ | ⟨c, hr, rfl⟩
  · exact .inr (.inr (advance_position hp hu hd))
  · exact .inr (.inl ⟨hu, hi, rfl⟩)
  · exact .inl ⟨c, (doUop_raises_code hr).1, rfl⟩

/-! ## OUT, ELAPSED_MS and P_DIV (R34, R52, R54) -/

/-- FMT alone appends to OUT, DLY alone adds to ELAPSED_MS, and WDIV alone writes P_DIV. -/
theorem doUop_outputs {u : Uop} {s t : State} (h : doUop u s = .done t) :
    (t.out = s.out ∨ ∃ r e, u = .fmt r ∧ t.out = s.out ++ e) ∧
    (t.elapsedMs = s.elapsedMs ∨ ∃ n, u = .dly n ∧ t.elapsedMs = s.elapsedMs + n.toNat) ∧
    (t.pDiv = s.pDiv ∨ ∃ v, u = .wdiv v) := by
  rcases doUop_done h with ⟨-, -, rfl⟩ | ⟨_, _, -, -, -, rfl⟩ | ⟨_, -, -, rfl⟩ | ⟨_, -, rfl⟩ | ⟨_, -, -, rfl⟩ |
    ⟨_, -, rfl⟩ | ⟨_, -, rfl⟩ | ⟨_, rfl, rfl⟩ | ⟨_, -, rfl⟩ | ⟨_, rfl, rfl⟩ | ⟨_, -, -, -, rfl⟩ | ⟨_, -, -, rfl⟩ |
    ⟨_, rfl, -, rfl⟩ <;>
    simp

theorem prim_of_fmt {p : Instr} {r : Reading} (h : .fmt r ∈ uopsOf p) : p = .fmtRh ∨ p = .fmtT := by
  cases p <;> simp_all [uopsOf]

theorem prim_of_dly {p : Instr} {n : BitVec 12} (h : .dly n ∈ uopsOf p) : ∃ n, p = .delay n := by
  cases p <;> simp_all [uopsOf]

theorem prim_of_wdiv {p : Instr} {v : Byte} (h : .wdiv v ∈ uopsOf p) : ∃ v, p = .init v := by
  cases p <;> simp_all [uopsOf]

/-- Settles O48: a HOLD and a fault write none of them, a μop as `doUop_outputs` says. -/
theorem outTimeAndDivisorHaveOneWriter : Obligations.OutTimeAndDivisorHaveOneWriter := by
  intro i p s t hp h
  rw [exec_eq_driverStep] at h
  obtain ⟨q, u, hq, hu, h⟩ := driverStep_next h
  obtain rfl : p = q := Option.some.inj (hp.symm.trans hq)
  have hmem := List.mem_of_getElem? hu
  rcases h with ⟨s', hd, rfl⟩ | ⟨-, -, rfl⟩ | ⟨c, -, rfl⟩
  · obtain ⟨-, -, -, -, -, -, -, -, hlog, hturns, hrx, hack, hdraws, hrdata⟩ := doUop_keeps_control hd
    obtain ⟨hout, hms, hdiv⟩ := doUop_outputs hd
    simp only [advance_out, advance_elapsedMs, advance_pDiv, advance_turns, advance_rxIn, advance_ackIn, advance_draws,
      advance_rdata, advance_busLog]
    refine ⟨?_, fun hne => ?_, ?_, fun hne => ?_, fun hne => ?_, hturns, hrx, hack, hdraws, hrdata, hlog⟩
    · rcases hout with hout | ⟨-, e, -, hout⟩
      · exact ⟨[], by simp [hout]⟩
      · exact ⟨e, hout⟩
    · obtain ⟨r, -, rfl, -⟩ := hout.resolve_left hne
      exact prim_of_fmt hmem
    · rcases hms with hms | ⟨n, -, hms⟩ <;> omega
    · obtain ⟨n, rfl, -⟩ := hms.resolve_left hne
      exact prim_of_dly hmem
    · obtain ⟨v, rfl⟩ := hdiv.resolve_left hne
      exact prim_of_wdiv hmem
  · exact ⟨⟨[], by simp⟩, by simp, le_rfl, by simp, by simp, rfl, rfl, rfl, rfl, rfl, rfl⟩
  · exact ⟨⟨[], by simp⟩, by simp, le_rfl, by simp, by simp, rfl, rfl, rfl, rfl, rfl, rfl⟩

/-! ## BUSLOG (R53, R232) -/

/-- The driver never writes BUSLOG. -/
theorem driverTurn_busLog {s t : State} (h : driverTurn s = .next t) : t.busLog = s.busLog := by
  rcases driverTurn_cases h with ⟨-, rfl⟩ | ⟨-, -, -, rfl⟩ | ⟨i, -, -, -, h⟩
  · rfl
  · rfl
  · obtain ⟨p, u, -, -, ⟨s', hd, rfl⟩ | ⟨-, -, rfl⟩ | ⟨c, -, rfl⟩⟩ := driverStep_next h
    · obtain ⟨-, -, -, -, -, -, -, -, hlog, -⟩ := doUop_keeps_control hd
      simp [hlog]
    · rfl
    · rfl

/-- An issue never writes BUSLOG. -/
theorem issue_busLog (w : Word) (s : State) : (issue w s).busLog = s.busLog := by
  rcases issue_cases w s with ⟨-, h⟩ | ⟨-, -, h⟩ | ⟨i, -, -, h⟩ <;> simp [h]

/-- A step where no turn is named writes BUSLOG only as a completion step. -/
theorem unnamedStep_busLog {s t : State} (h : unnamedStep s = .next t) :
    t.busLog = s.busLog ∨ ∃ op, periphEnabled op s = true ∧ t = periphEffect op s := by
  unfold unnamedStep at h
  split at h
  · rename_i op hop
    split_ifs at h
    · have he := enabledOp_some hop
      exact .inr ⟨op, he, by simpa [periphTurn, he] using h.symm⟩
    · exact .inl (driverTurn_busLog h)
  · exact .inl (driverTurn_busLog h)

/-- A named turn but a reset writes BUSLOG only as a completion step. -/
theorem takeTurn_busLog {τ : Turn} {s t : State} (h : takeTurn τ s = .next t) (hτ : τ ≠ .reset) :
    t.busLog = s.busLog ∨ ∃ op, τ = .periph op ∧ periphEnabled op s = true ∧ t = periphEffect op s := by
  cases τ with
  | driver => exact .inl (driverTurn_busLog h)
  | periph op =>
    obtain rfl : periphTurn op s = t := by simpa [takeTurn] using h
    unfold periphTurn
    split_ifs with he
    · exact .inr ⟨op, rfl, he, rfl⟩
    · exact .inl rfl
  | read off =>
    obtain rfl : hostRead off s = t := by simpa [takeTurn] using h
    obtain ⟨_, _, h⟩ := hostRead_eq off s
    exact .inl (by rw [h])
  | write off v =>
    obtain rfl : hostWrite off v s = t := by simpa [takeTurn] using h
    unfold hostWrite
    split_ifs
    · exact .inl (issue_busLog v s)
    · exact .inl rfl
  | consume =>
    obtain rfl : s = t := by simpa [takeTurn, hostConsume] using h
    exact .inl rfl
  | reset => exact absurd rfl hτ
  | partialAccess | peripheralAccess | otherMaster => cases h

/-- Settles O43: the driver and the host never write BUSLOG, and a completion step appends its entry. -/
theorem busLogGrowsByCompletionsOnly : Obligations.BusLogGrowsByCompletionsOnly := by
  intro s t h hreset
  have unnamed (h : unnamedStep s = .next t) : t.busLog = s.busLog ∨
      ∃ op, periphEnabled op s = true ∧ t.busLog = s.busLog ++ [busEntry op s] ∧ t = periphEffect op s :=
    (unnamedStep_busLog h).imp id fun ⟨op, he, ht⟩ => ⟨op, he, ht ▸ periphEffect_busLog op s, ht⟩
  unfold step at h
  split at h
  · exact (unnamed h).imp id fun ⟨op, he, hlog, ht⟩ => ⟨op, he, hlog, .inl ht⟩
  · rename_i τ ts hts
    split_ifs at h
    · exact (unnamed h).imp id fun ⟨op, he, hlog, ht⟩ => ⟨op, he, hlog, .inl ht⟩
    · rcases takeTurn_busLog h (by simpa [hts] using hreset) with hlog | ⟨op, rfl, he, rfl⟩
      · exact .inl hlog
      · refine .inr ⟨op, he, ?_, .inr ⟨ts, hts, rfl⟩⟩
        rw [periphEffect_withTurns]
        exact periphEffect_busLog op s

end Sys2Proof.Machine
end

section
/-! SUPPORT. The obligations about the host's accesses, the words it reads, the issued command's first step and the state
at launch (10_state.md R50, R51, R56, 30_encoding.md R106, 60_exceptions.md R236). -/

namespace Sys2Proof.Machine

/-! ## The host's turns (R50, R236) -/

/-- A host read's step. -/
theorem step_read {s : State} {off : BitVec 4} {ts : List Turn} (h : s.turns = .read off :: ts) :
    step s = .next (hostRead off { s with turns := ts }) := by
  simp [step, h, hostWaits, takeTurn]

/-- A read that is not free returns the register (R87). -/
theorem hostRead_content {off : BitVec 4} {s : State} (h : hostReadIsFree off s = false) :
    hostRead off s = { s with rdata := hostContent off s } := by
  simp [hostRead, h]

/-- Offsets 11 to 15 are never free, and read 0 (R50). -/
theorem hostRead_above {off : BitVec 4} (h : 11 ≤ off.toNat) (s : State) : hostRead off s = { s with rdata := 0 } := by
  have above : off = 11 ∨ off = 12 ∨ off = 13 ∨ off = 14 ∨ off = 15 := by revert off; decide
  rcases above with rfl | rfl | rfl | rfl | rfl <;> rfl

/-- Settles O12: each offset's read by its register, and any read by `hostRead_eq`. -/
theorem hostReadReturnsTheRegister : Obligations.HostReadReturnsTheRegister := by
  intro s off ts h
  rw [step_read h]
  have any : ∃ v d, Host.Outcome.next (hostRead off { s with turns := ts }) =
      (.next { s with turns := ts, rdata := v, draws := d } : Host.Outcome State Fault Refusal) := by
    obtain ⟨v, d, h⟩ := hostRead_eq off { s with turns := ts }
    exact ⟨v, d, by rw [h]⟩
  refine ⟨?_, ?_, ?_, ?_, ?_, ?_, ?_, ?_, ?_, ?_, ?_, fun hoff => by rw [hostRead_above hoff], any⟩
  all_goals
    rintro rfl
    intros
    exact congrArg _ (hostRead_content (by simp_all [hostReadIsFree]))

/-- Settles O13: only offset 0 issues, and a consume step reads OUT alone. -/
theorem otherHostWritesAndConsumeChangeNothing : Obligations.OtherHostWritesAndConsumeChangeNothing := by
  intro s off v ts
  constructor
  · intro h (hoff : off ≠ 0#4)
    simp [step, h, hostWaits, takeTurn, hostWrite, hoff]
  · intro h
    simp [step, h, hostWaits, takeTurn, hostConsume]

/-! ## STATUS and SEQ (R50, R51) -/

/-- A field above another stands at the lower one's width. -/
theorem toNat_append_add {m n : Nat} (x : BitVec m) (y : BitVec n) : (x ++ y).toNat = 2 ^ n * x.toNat + y.toNat := by
  rw [BitVec.toNat_append, Nat.shiftLeft_eq, Nat.mul_comm, Nat.two_pow_add_eq_or_of_lt y.isLt]

/-- Settles O14: each word is its fields one above the other, so its value is their sum by places. -/
theorem statusAndSeqFieldsStandInPlace : Obligations.StatusAndSeqFieldsStandInPlace := by
  refine ⟨fun s => ⟨?_, ?_⟩, by decide, by decide⟩
  · simp only [State.statusWord, toNat_append_add, BitVec.toNat_ofBool]
    simp; ring
  · simp only [State.seqWord, toNat_append_add]
    simp; ring

/-! ## The word of a command decodes to it (R106, R108) -/

/-- No two rows of R106 select the same word: their patterns differ in a bit both masks keep. -/
theorem opRows_pairwise (w : Word) : opRows.Pairwise fun a b => a.selects w = true → b.selects w = true → False := by
  have disjoint : opRows.Pairwise fun a b => a.bits &&& b.mask ≠ b.bits &&& a.mask := by
    simp [opRows, busRows, readingRows]
  refine disjoint.imp fun {a b} h ha hb => h ?_
  simp only [OpRow.selects, beq_iff_eq] at ha hb
  rw [← ha, ← hb, BitVec.and_assoc, BitVec.and_assoc, BitVec.and_comm a.mask]

/-- Of elements no two of which are accepted, the one that is accepted is found. -/
theorem find?_of_pairwise {α : Type} {p : α → Bool} {l : List α} (h : l.Pairwise fun a b => p a = true → p b = true → False)
    {r : α} (hr : r ∈ l) (hp : p r = true) : l.find? p = some r := by
  induction h with
  | nil => cases hr
  | @cons a l ha _ ih =>
    rcases List.mem_cons.1 hr with rfl | hr
    · rw [List.find?_cons_of_pos hp]
    · rw [List.find?_cons_of_neg fun hpa => ha r hr hpa hp, ih hr]

/-- The one row that selects a word is the row found (R108). -/
theorem decode_of_selects {w : Word} {r : OpRow} (hr : r ∈ opRows) (hw : r.selects w = true) :
    decode w = .ok (r.build w) := by
  rw [decode, find?_of_pairwise (opRows_pairwise w) hr hw]

/-- The operand of a DELAY reads back what `encode` placed (R105). -/
theorem nField_encode_delay (n : BitVec 12) : nField (encode (.delay n)) = n := by
  apply BitVec.eq_of_getLsbD_eq
  intro k hk
  have high : (0x7000#16)[k]'(by omega) = false := by interval_cases k <;> simp
  simp [nField, encode, high, hk, show k < 16 by omega]

/-- A command's word selects a row that builds the command (R106). -/
theorem row_of_encode (i : Instr) : ∃ r ∈ opRows, r.selects (encode i) = true ∧ r.build (encode i) = i := by
  cases i with
  | delay n =>
    refine ⟨⟨0x7000, 0xF000, fun w => .delay (nField w)⟩, by simp [opRows, busRows], ?_, ?_⟩
    · exact beq_iff_eq.2 (Laws.EncodeMatchesRow.delay n)
    · exact congrArg _ (nField_encode_delay n)
  | send b => revert b; decide
  | init v => revert v; decide
  | recv a d => revert a d; decide
  | waitIdle | start | rstart | stop | asmRh | asmT | decRh | decT | fmtRh | fmtT | measRh | measT | cycle => decide

/-- Every command's word decodes to it. -/
theorem decode_encode (i : Instr) : decode (encode i) = .ok i := by
  obtain ⟨r, hr, hw, hbuild⟩ := row_of_encode i
  rw [decode_of_selects hr hw, hbuild]

/-! ## The latched command's first step (R42 to R44, R190) -/

/-- The driver's named turn, while a command runs, is a step of that command. -/
theorem step_driver {s : State} {i : Instr} {ts : List Turn} (hts : s.turns = .driver :: ts) (hb : s.busy = true)
    (hh : s.halt = false) (hd : decode s.cur = .ok i) : step s = exec i { s with turns := ts } := by
  simp [step, hts, hostWaits, takeTurn, driverTurn, hb, hh, hd]

/-- A command's word is 16 bits, so the table word is the word itself. -/
theorem tableWord_toNat (w : Word) : tableWord 16 w.toNat = w := by
  rw [tableWord, Nat.mod_eq_of_lt w.isLt, BitVec.ofNat_toNat, BitVec.setWidth_eq]

/-- Settles O6: the turn decodes CUR, and the placed word decodes to its command. -/
theorem driverTurnRunsTheLatchedCommand : Obligations.DriverTurnRunsTheLatchedCommand := by
  intro s i
  refine ⟨fun ts hts hb hh hd => step_driver hts hb hh hd, ?_⟩
  have hd := decode_encode i
  rw [State.withFetchWord, tableWord_toNat, placeCommand, hd]
  rw [step_driver (ts := s.turns) (i := i) (by simp) (by simp) (by simp) (by simp [hd])]
  cases i <;> rfl

/-! ## The state at launch (R56, R241, R243) -/

/-- Settles O56: the launch state leaves no field unknown that one of these reads, so each is evaluated. -/
theorem launchStateMeetsTheInvariants : Obligations.LaunchStateMeetsTheInvariants := by
  unfold Obligations.LaunchStateMeetsTheInvariants
  decide

end Sys2Proof.Machine
end

section
/-! SUPPORT. The obligation about the accesses the spec refuses (20_memory.md R77, 60_exceptions.md R235, R236). -/

namespace Sys2Proof.Machine

/-- A named turn that does not wait is taken, and is no longer among the turns to come (R6). -/
theorem step_takeTurn {s : State} {τ : Turn} {ts : List Turn} (h : s.turns = τ :: ts) (hw : hostWaits τ s = false) :
    step s = takeTurn τ { s with turns := ts } := by
  simp [step, h, hw]

/-- Settles O16: only a host write can wait, so each refused access is taken at once, and is a refusal in every state. -/
theorem refusedAccessesHaveNoStep : Obligations.RefusedAccessesHaveNoStep := by
  intro s ts
  exact ⟨fun h => step_takeTurn h rfl, fun h => step_takeTurn h rfl, fun h => step_takeTurn h rfl⟩

end Sys2Proof.Machine
end

section
/-! SUPPORT. The obligations about the encoding (30_encoding.md R106 to R110): what the decoder answers in terms of the
rows of R106, and where the words of the assembler place their operands. -/

namespace Sys2Proof.Machine

/-! ## What the decoder answers (R106, R107) -/

/-- No row of R106 selects the word. -/
def NoRow (w : Word) : Prop := ∀ r ∈ opRows, w &&& r.mask ≠ r.bits

theorem decode_ok_iff {w : Word} {i : Instr} :
    decode w = .ok i ↔ ∃ r ∈ opRows, r.selects w = true ∧ r.build w = i := by
  constructor
  · intro h
    cases hf : opRows.find? fun r => r.selects w with
    | none => simp [decode, hf] at h
    | some r =>
      have hr : r.build w = i := by simpa [decode, hf] using h
      exact ⟨r, List.mem_of_find?_eq_some hf, List.find?_some (p := fun r : OpRow => r.selects w) hf, hr⟩
  · rintro ⟨r, hr, hw, rfl⟩
    exact decode_of_selects hr hw

/-- The opcode field is what stands above the low 12 bits (R100). -/
theorem opField_eq_zero_iff (w : Word) : opField w = 0 ↔ w >>> 12 = 0 := by
  have fits : w.toNat / 2 ^ 12 < 2 ^ 4 := by omega
  simp only [opField, ← BitVec.toNat_inj, BitVec.extractLsb'_toNat, BitVec.toNat_ushiftRight,
    Nat.shiftRight_eq_div_pow, Nat.mod_eq_of_lt fits]
  rfl

/-- A word is illegal exactly when no row selects it; its opcode field decides the kind (R107). -/
theorem decode_error_iff {w : Word} {e : DecodeError} :
    decode w = .error e ↔ NoRow w ∧ (if w >>> 12 = 0 then .opcodeZero else .reservedBitSet) = e := by
  have none_iff : opRows.find? (fun r => r.selects w) = none ↔ NoRow w := by
    simp [NoRow, List.find?_eq_none, OpRow.selects]
  rw [← none_iff, decode]
  simp only [opField_eq_zero_iff]
  cases opRows.find? fun r => r.selects w with
  | none => simp
  | some r => simp

/-- No row has opcode 0, so no row selects a word whose opcode is 0 (R107). -/
theorem noRow_of_opcode_zero {w : Word} (h : w >>> 12 = 0) : NoRow w := by
  intro r hr hw
  have opcode_ne_zero : ∀ r ∈ opRows, r.bits >>> 12 ≠ 0 := by simp [opRows, busRows, readingRows]
  refine opcode_ne_zero r hr ?_
  rw [← hw, BitVec.ushiftRight_and_distrib, h]
  exact BitVec.zero_and

/-- Settles O4: a word of opcode 0 matches no row, so the kinds of R107 tell opcode 0 from every other illegal word. -/
theorem illegalWordsMatchNoRow : Obligations.IllegalWordsMatchNoRow := by
  intro w
  change (_ ↔ NoRow w) ∧ _ ∧ (_ ↔ _ ∧ NoRow w)
  simp only [decode_error_iff]
  by_cases h : w >>> 12 = 0#16
  · simp [h, noRow_of_opcode_zero h]
  · simp [h, and_comm]

/-- Settles O1: each word is looked up among the rows. -/
theorem wordsOfTheOpcodeMapDecode : Obligations.WordsOfTheOpcodeMapDecode := by
  unfold Obligations.WordsOfTheOpcodeMapDecode
  decide

/-! ## Decode and encode (R106, R108) -/

/-- The command of a row has the row's pattern as its word, with the bits of `w` the row's mask leaves open. -/
theorem encode_build (w : Word) : ∀ r ∈ opRows, encode (r.build w) = r.bits ||| (w &&& ~~~r.mask) := by
  have imm8 : (imm8Field w).setWidth 16 = w &&& 0x00FF := by
    ext k hk; interval_cases k <;> simp [imm8Field]
  have n : (nField w).setWidth 16 = w &&& 0x0FFF := by
    ext k hk; interval_cases k <;> simp [nField]
  have recv : encode (.recv (aField w) (dField w)) = 0x6000 ||| (w &&& 0x0300) := by
    ext k hk; interval_cases k <;> simp [encode, aField, dField]
  simpa [opRows, busRows, readingRows, encode, imm8, n] using recv

/-- Settles O2: `decode_encode`, the word of a command selects the row that builds it. -/
theorem decodeOfEncodeIsTheCommand : Obligations.DecodeOfEncodeIsTheCommand := decode_encode

/-- Settles O3: the word has the row's pattern where the row's mask looks, and the command's operands elsewhere. -/
theorem encodeOfDecodeIsTheWord : Obligations.EncodeOfDecodeIsTheWord := by
  intro w i h
  obtain ⟨r, hr, hw, rfl⟩ := decode_ok_iff.1 h
  have pattern : w &&& r.mask = r.bits := beq_iff_eq.1 hw
  rw [encode_build w r hr, ← pattern]
  ext k hk
  simp [← Bool.and_or_distrib_left]

/-! ## The words of the assembler (R109, R110) -/

theorem assemble_eq_none_iff {c : Config} {l : AsmLine} : assemble c l = none ↔ l.wellFormed = false := by
  cases h : l.wellFormed <;> simp [assemble, h]

/-! A word of R109 is its opcode's bits and its operand, one field above the other. -/

theorem encode_send_toNat (b : Byte) : (encode (.send b)).toNat = 0x5000 + b.toNat := toNat_append_add 0x50#8 b

theorem encode_init_toNat (v : Byte) : (encode (.init v)).toNat = 0x8000 + v.toNat := toNat_append_add 0x80#8 v

theorem encode_delay_toNat (n : BitVec 12) : (encode (.delay n)).toNat = 0x7000 + n.toNat := toNat_append_add 0x7#4 n

theorem encode_recv_toNat (a d : Bool) : (encode (.recv a d)).toNat = 0x6000 + 512 * d.toNat + 256 * a.toNat := by
  revert a d; decide

/-- The address is in bits 7:1 and the direction in bit 0 (R137). -/
theorem addressByte_toNat (a : BitVec 7) (isRead : Bool) :
    (addressByte a isRead).toNat = 2 * a.toNat + isRead.toNat := by
  rw [addressByte, toNat_append_add, BitVec.toNat_ofBool, pow_one]

/-- The selector bit of a byte register in range is its number (R103). -/
theorem toNat_byteReg {d : Nat} (h : d ≤ 1) : (d == 1).toNat = d := by
  interval_cases d <;> rfl

/-- A line with one range to check, `p`, gives the word of its command when `p` holds, and none otherwise (R109). -/
theorem assembledWord_eq_ite {c : Config} {l : AsmLine} {i : Instr} {p : Prop} [Decidable p] {v : Nat}
    (hl : l.wellFormed = decide p) (hi : assemble c l = if l.wellFormed then some i else none)
    (hv : p → (encode i).toNat = v) :
    (assemble c l).map (fun i => (encode i).toNat) = if p then some v else none := by
  by_cases h : p
  · simp [hi, hl, h, hv h]
  · simp [hi, hl, h]

/-- Settles O5: the assembler rejects what `wellFormed` does, and an operand in range is the number its field holds. -/
theorem assemblerPlacesOrRejectsOperands : Obligations.AssemblerPlacesOrRejectsOperands := by
  intro c
  refine ⟨fun l => assemble_eq_none_iff, ?send, ?init, ?delay, ?recv, ⟨rfl, rfl, rfl, rfl⟩, ⟨rfl, rfl, rfl, rfl⟩,
    ⟨rfl, rfl, rfl, rfl, rfl⟩, ⟨congrArg some ?sendW, congrArg some ?sendR⟩,
    ⟨congrArg some (encode_send_toNat _), congrArg some (encode_send_toNat _)⟩, ?recvA, ?recvN, ⟨rfl, rfl⟩⟩
  case send =>
    exact fun b => assembledWord_eq_ite rfl rfl fun h => by
      rw [encode_send_toNat, BitVec.toNat_ofNat, Nat.mod_eq_of_lt (by omega)]
  case init =>
    exact fun v => assembledWord_eq_ite rfl rfl fun h => by
      rw [encode_init_toNat, BitVec.toNat_ofNat, Nat.mod_eq_of_lt (by omega)]
  case delay =>
    exact fun n => assembledWord_eq_ite rfl rfl fun h => by
      rw [encode_delay_toNat, BitVec.toNat_ofNat, Nat.mod_eq_of_lt (by omega)]
  case recv => exact fun a d => assembledWord_eq_ite rfl rfl fun h => by rw [encode_recv_toNat, toNat_byteReg h]
  case recvA =>
    exact fun d => assembledWord_eq_ite rfl rfl fun h => by
      rw [encode_recv_toNat, toNat_byteReg h, Bool.toNat_true]; omega
  case recvN => exact fun d => assembledWord_eq_ite rfl rfl fun h => by rw [encode_recv_toNat, toNat_byteReg h]; rfl
  case sendW => exact (encode_send_toNat _).trans (congrArg _ (addressByte_toNat _ false))
  case sendR => exact (encode_send_toNat _).trans (congrArg _ (addressByte_toNat _ true))

end Sys2Proof.Machine
end

section
/-! SUPPORT. The slave's acknowledge (40_bus_phases.md R138): every μop, and with it every driver step, commutes with a
change of P_STAT.ACKSTAT. -/

namespace Sys2Proof.Machine

/-! ## What ACKSTAT leaves alone (R32) -/

/-- Writes of different bits commute. -/
theorem withBit_comm (x : Byte) {j k : Nat} (hj : j < 8) (hk : k < 8) (hjk : j ≠ k) (a b : Bool) :
    withBit (withBit x j a) k b = withBit (withBit x k b) j a := by
  apply BitVec.eq_of_getLsbD_eq
  intro n _
  simp only [getLsbD_withBit _ hj, getLsbD_withBit _ hk]
  split_ifs <;> simp_all

theorem withAckstat_idleP (s : State) (k : Bool) : (s.withAckstat k).idleP = s.idleP := by
  have busy : (s.withAckstat k).txBusy = s.txBusy := by simp [State.withAckstat, State.txBusy]
  rw [State.idleP, State.idleP, busy]
  rfl

/-! ## The driver's steps -/

/-- The result of a μop with ACKSTAT at `k`. -/
def UopResult.withAckstat (k : Bool) : UopResult → UopResult
  | .done t => .done (t.withAckstat k)
  | .holds => .holds
  | .raises c => .raises c
  | .stops f => .stops f

/-- The outcome of a step with ACKSTAT at `k`. -/
def outcomeWithAckstat (k : Bool) : Host.Outcome State Fault Refusal → Host.Outcome State Fault Refusal
  | .next t => .next (t.withAckstat k)
  | .fault f => .fault f
  | .refused r => .refused r

theorem txnCheck_withAckstat (c : BusCmd) (s : State) (k : Bool) :
    txnCheck c (s.withAckstat k) = (txnCheck c s).withAckstat k := by
  have same_txn : (s.withAckstat k).txn = s.txn := rfl
  cases h : txnTable c s.txn with
  | error f => rw [txnCheck_error h, txnCheck_error (same_txn ▸ h)]; rfl
  | ok n => rw [txnCheck_ok h, txnCheck_ok (same_txn ▸ h)]; cases c <;> rfl

/-- No μop reads ACKSTAT, and none writes it: WDATA sets P_STAT.BUSY beside it. -/
theorem doUop_withAckstat (u : Uop) (s : State) (k : Bool) :
    doUop u (s.withAckstat k) = (doUop u s).withAckstat k := by
  have same_en : (s.withAckstat k).en = s.en := rfl
  cases u with
  | hold => simp only [doUop, withAckstat_idleP]; split_ifs <;> rfl
  | ckBus c => simp only [doUop_ckBus, same_en, txnCheck_withAckstat]; split_ifs <;> rfl
  | ckInit => exact txnCheck_withAckstat .init s k
  | wdata b =>
    simp only [doUop_wdata, same_en]
    split_ifs
    · simp [UopResult.withAckstat, State.withAckstat, withBit_comm s.pStat (j := 1) (k := 0)]
    · rfl
  | rdata d => cases d <;> rfl
  | asm r =>
    show (if s.vB0 && s.vB1 then _ else _) = UopResult.withAckstat k (if s.vB0 && s.vB1 then _ else _)
    split_ifs <;> cases r <;> rfl
  | dec r =>
    have same_valid : rawValid r (s.withAckstat k) = rawValid r s := by cases r <;> rfl
    simp only [doUop, decUop, same_valid]
    split_ifs <;> cases r <;> rfl
  | fmt r =>
    have same_valid : decodedValid r (s.withAckstat k) = decodedValid r s := by cases r <;> rfl
    simp only [doUop, fmtUop, same_valid]
    split_ifs <;> cases r <;> rfl
  | set | wackdt | wdiv | wctrl | dly => rfl

theorem advance_withAckstat (nP nU : Nat) (s : State) (k : Bool) :
    advance nP nU (s.withAckstat k) = (advance nP nU s).withAckstat k := by
  show (if s.mph.toNat + 1 < nU then _ else if s.ph.toNat + 1 < nP then _ else _) = _
  unfold advance
  split_ifs <;> rfl

theorem settle_withAckstat (nP nU : Nat) (s : State) (r : UopResult) (k : Bool) :
    settle nP nU (s.withAckstat k) (r.withAckstat k) = outcomeWithAckstat k (settle nP nU s r) := by
  cases r with
  | done t => exact congrArg Host.Outcome.next (advance_withAckstat nP nU t k)
  | holds | raises | stops => rfl

/-- PH and MPH alone say whether a driver step is past its lists, and else at which μop it stands (R43, R44). -/
theorem driverStep_cases (prims : List Instr) (s : State) :
    (∀ t : State, t.ph = s.ph → t.mph = s.mph → driverStep prims t = .fault .phaseOutOfRange) ∨
    ∃ p u, ∀ t : State, t.ph = s.ph → t.mph = s.mph →
      driverStep prims t = settle prims.length (uopsOf p).length t (doUop u t) := by
  cases hp : prims[s.ph.toNat]? with
  | none => exact .inl fun t h1 _ => by simp [driverStep, h1, hp]
  | some p =>
    cases hu : (uopsOf p)[s.mph.toNat]? with
    | none => exact .inl fun t h1 h2 => by simp [driverStep, h1, h2, hp, hu]
    | some u => exact .inr ⟨p, u, fun t h1 h2 => driverStep_at (h1 ▸ hp) (h2 ▸ hu)⟩

theorem exec_withAckstat (i : Instr) (s : State) (k : Bool) :
    exec i (s.withAckstat k) = outcomeWithAckstat k (exec i s) := by
  rw [exec_eq_driverStep, exec_eq_driverStep]
  change driverStep (primsOf s.cfg i) (s.withAckstat k) = _
  rcases driverStep_cases (primsOf s.cfg i) s with h | ⟨p, u, h⟩ <;>
    rw [h s rfl rfl, h (s.withAckstat k) rfl rfl]
  · rfl
  · rw [doUop_withAckstat, settle_withAckstat]

/-- No command's step is refused: a μop's result is a next state or the model's stop. -/
theorem exec_ne_refused (i : Instr) (s : State) (r : Refusal) : exec i s ≠ .refused r := by
  rw [exec_eq_driverStep]
  rcases driverStep_cases (primsOf s.cfg i) s with h | ⟨p, u, h⟩ <;> rw [h s rfl rfl]
  · simp
  · cases doUop u s <;> simp

/-- Settles O49: a step with another ACKSTAT is the same step with that ACKSTAT put into its outcome. -/
theorem slaveAcknowledgeIsIgnored : Obligations.SlaveAcknowledgeIsIgnored := by
  intro i s k
  refine ⟨fun t h => ?_, fun f h => ?_, exec_ne_refused i s⟩
  · rw [exec_withAckstat, h]; rfl
  · rw [exec_withAckstat, h]; rfl

end Sys2Proof.Machine
end

section
/-! SUPPORT. The obligations about the bus-phase primitives (40_bus_phases.md R130 to R146), μop by μop: what a primitive
command makes of the result of the μop it stands at, and the μops' results where they do not fault. -/

namespace Sys2Proof.Machine

/-! ## A primitive command at one of its μops (R43 to R46) -/

/-- The primitive command `i` stands at its μop `u`, at MPH = `m`. -/
structure AtPrimitive (i : Instr) (s : State) (m : BitVec 3) (u : Uop) : Prop where
  prims : primsOf s.cfg i = [i]
  ph : s.ph = 0
  mph : s.mph = m
  uop : (uopsOf i)[m.toNat]? = some u

namespace AtPrimitive

variable {i : Instr} {s t : State} {m : BitVec 3} {u : Uop}

theorem exec_eq (h : AtPrimitive i s m u) : exec i s = settle 1 (uopsOf i).length s (doUop u s) :=
  exec_primitive_at h.prims h.ph h.mph h.uop

/-- A μop that another one follows leads to it (R46). -/
theorem exec_next (h : AtPrimitive i s m u) {v : Uop} (follows : (uopsOf i)[m.toNat + 1]? = some v)
    (hd : doUop u s = .done t) : exec i s = .next { t with mph := m + 1 } := by
  obtain ⟨-, hmph, -⟩ := doUop_keeps_control hd
  have hlt := (List.getElem?_eq_some_iff.1 follows).1
  rw [h.exec_eq, hd, settle_done, advance, hmph, h.mph, if_pos hlt]

/-- The last μop completes the command (R46). -/
theorem exec_last (h : AtPrimitive i s m u) (last : (uopsOf i)[m.toNat + 1]? = none)
    (hd : doUop u s = .done t) : exec i s = .next t.completed := by
  obtain ⟨hph, hmph, -⟩ := doUop_keeps_control hd
  have hge := List.getElem?_eq_none_iff.1 last
  rw [h.exec_eq, hd, settle_done, advance, hmph, h.mph, if_neg (by omega), hph, h.ph, if_neg (by decide)]
  rfl

/-- A HOLD lets the command go on while the peripheral is idle (R44). -/
theorem exec_passes (h : AtPrimitive i s m .hold) {v : Uop} (follows : (uopsOf i)[m.toNat + 1]? = some v)
    (hi : s.idleP = true) : exec i s = .next { s with mph := m + 1 } :=
  h.exec_next follows (doUop_hold_idle hi)

/-- A HOLD waits while the peripheral is not idle (R45). -/
theorem exec_waits (h : AtPrimitive i s m .hold) (hi : s.idleP = false) : exec i s = .next s := by
  rw [h.exec_eq, doUop_hold_busy hi, settle_holds]

/-- A fault is recorded and nothing else changes (R212). -/
theorem exec_faults (h : AtPrimitive i s m u) {c : FaultCode} (hr : doUop u s = .raises c) :
    exec i s = .next (s.faulted c) := by
  rw [h.exec_eq, hr, settle_raises]; rfl

end AtPrimitive

/-! ## The checks, by the cell of the transaction table (R130, R131) -/

theorem doUop_ckBus_ok {c : BusCmd} {s : State} {t n : Txn} (he : s.en = true) (ht : s.txn = t)
    (cell : txnTable c t = .ok n) : doUop (.ckBus c) s = .done (ckClears c { s with txn := n }) := by
  rw [doUop_ckBus, if_pos he, txnCheck_ok (ht ▸ cell)]

theorem doUop_ckBus_error {c : BusCmd} {s : State} {t : Txn} {f : FaultCode} (he : s.en = true) (ht : s.txn = t)
    (cell : txnTable c t = .error f) : doUop (.ckBus c) s = .raises f := by
  rw [doUop_ckBus, if_pos he, txnCheck_error (ht ▸ cell)]

theorem doUop_ckBus_disabled {s : State} (he : s.en = false) (c : BusCmd) :
    doUop (.ckBus c) s = .raises .notEnabled := by
  simp [doUop_ckBus, he]

/-- A SEND in ADDR takes the direction from bit 0 of its byte (R137). -/
theorem txnTable_send_addr {b : Byte} {isRead : Bool} (hb : b.getLsbD 0 = isRead) :
    txnTable (.send b) .addr = .ok (if isRead then .read else .write) := hb ▸ rfl

/-- With a transaction open, START and INIT are TXN_OPEN (R131). -/
theorem txnTable_open {t : Txn} (ht : t ≠ .idle) :
    txnTable .start t = .error .txnOpen ∧ txnTable .init t = .error .txnOpen := by
  cases t with
  | idle => exact absurd rfl ht
  | addr | write | read | readMore | readDone => exact ⟨rfl, rfl⟩

/-! ## The obligations -/

/-- Settles O17: its one μop is a HOLD. -/
theorem waitIdleHoldsThenCompletes : Obligations.WaitIdleHoldsThenCompletes := by
  intro s h0 hm
  have at_hold : AtPrimitive .waitIdle s 0 .hold := ⟨rfl, h0, hm, rfl⟩
  exact ⟨fun hi => at_hold.exec_last rfl (doUop_hold_idle hi), at_hold.exec_waits⟩

/-- Settles O18: CK opens the transaction from IDLE, then HOLD, then SET SEN. -/
theorem startRunsToItsStartCondition : Obligations.StartRunsToItsStartCondition := by
  intro s h0
  have at_ck (hm : s.mph = 0) : AtPrimitive .start s 0 (.ckBus .start) := ⟨rfl, h0, hm, rfl⟩
  have at_hold (hm : s.mph = 1) : AtPrimitive .start s 1 .hold := ⟨rfl, h0, hm, rfl⟩
  refine ⟨fun hm he ht => ?ck, fun hm => (at_hold hm).exec_passes rfl,
    fun hm => (at_hold hm).exec_waits, fun hm => ?set⟩
  case ck => exact (at_ck hm).exec_next rfl (doUop_ckBus_ok he ht rfl)
  case set => exact set_sen s.pCtrl ▸ AtPrimitive.exec_last ⟨rfl, h0, hm, rfl⟩ rfl (doUop_set .sen s)

/-- Settles O19: CK goes from WRITE back to ADDR, then HOLD, then SET RSEN. -/
theorem repeatedStartKeepsTheBus : Obligations.RepeatedStartKeepsTheBus := by
  intro s h0
  have at_ck (hm : s.mph = 0) : AtPrimitive .rstart s 0 (.ckBus .rstart) := ⟨rfl, h0, hm, rfl⟩
  have at_hold (hm : s.mph = 1) : AtPrimitive .rstart s 1 .hold := ⟨rfl, h0, hm, rfl⟩
  refine ⟨fun hm he ht => ?ck, fun hm => (at_hold hm).exec_passes rfl,
    fun hm => (at_hold hm).exec_waits, fun hm => ?set⟩
  case ck => exact (at_ck hm).exec_next rfl (doUop_ckBus_ok he ht rfl)
  case set => exact set_rsen s.pCtrl ▸ AtPrimitive.exec_last ⟨rfl, h0, hm, rfl⟩ rfl (doUop_set .rsen s)

/-- Settles O20: CK closes the transaction from either of its two cells, then HOLD, then SET PEN. -/
theorem stopReleasesTheBus : Obligations.StopReleasesTheBus := by
  intro s h0
  have at_hold (hm : s.mph = 1) : AtPrimitive .stop s 1 .hold := ⟨rfl, h0, hm, rfl⟩
  refine ⟨fun hm he ht => ?ck, fun hm => (at_hold hm).exec_passes rfl,
    fun hm => (at_hold hm).exec_waits, fun hm => ?set⟩
  case ck =>
    have hd : doUop (.ckBus .stop) s = .done { s with txn := .idle } :=
      ht.elim (doUop_ckBus_ok he · rfl) (doUop_ckBus_ok he · rfl)
    exact AtPrimitive.exec_next ⟨rfl, h0, hm, rfl⟩ rfl hd
  case set => exact set_pen s.pCtrl ▸ AtPrimitive.exec_last ⟨rfl, h0, hm, rfl⟩ rfl (doUop_set .pen s)

/-- Settles O21: CK takes the direction of an address byte or stays in WRITE, then HOLD, then WDATA. -/
theorem sendTransmitsItsByte : Obligations.SendTransmitsItsByte := by
  intro b s h0
  have at_ck (hm : s.mph = 0) : AtPrimitive (.send b) s 0 (.ckBus (.send b)) := ⟨rfl, h0, hm, rfl⟩
  have at_hold (hm : s.mph = 1) : AtPrimitive (.send b) s 1 .hold := ⟨rfl, h0, hm, rfl⟩
  have at_wdata (hm : s.mph = 2) : AtPrimitive (.send b) s 2 (.wdata b) := ⟨rfl, h0, hm, rfl⟩
  refine ⟨fun hm he ht hb => ?addrWrite, fun hm he ht hb => ?addrRead, fun hm he ht => ?data,
    fun hm => (at_hold hm).exec_passes rfl, fun hm => (at_hold hm).exec_waits,
    fun hm he => ?wdata, fun hm he => ?stops⟩
  case addrWrite => exact (at_ck hm).exec_next rfl (doUop_ckBus_ok he ht (txnTable_send_addr hb))
  case addrRead => exact (at_ck hm).exec_next rfl (doUop_ckBus_ok he ht (txnTable_send_addr hb))
  case data =>
    have hd : doUop (.ckBus (.send b)) s = .done s := (doUop_ckBus_ok he ht rfl).trans (by rw [← ht]; rfl)
    exact (at_ck hm).exec_next rfl hd
  case wdata => exact (at_wdata hm).exec_last rfl (by rw [doUop_wdata, if_pos he]; rfl)
  case stops => rw [(at_wdata hm).exec_eq, doUop_wdata, he]; rfl

/-- Settles O22: CK owes or ends the reading, then HOLD and SET RCEN, HOLD and RDATA, WACKDT and SET ACKEN. -/
theorem receiveReadsThenAcknowledges : Obligations.ReceiveReadsThenAcknowledges := by
  intro a d s h0
  have at_uop {m : BitVec 3} {u : Uop} (hu : (uopsOf (.recv a d))[m.toNat]? = some u) (hm : s.mph = m) :
      AtPrimitive (.recv a d) s m u := ⟨rfl, h0, hm, hu⟩
  refine ⟨fun hm he ht => ?ck, fun hm => (at_uop rfl hm).exec_passes rfl, fun hm => ?rcen,
    fun hm => (at_uop rfl hm).exec_passes rfl, fun hm hi => ?waits,
    fun hm hd => ?b0, fun hm hd => ?b1, fun hm ha => ?ack, fun hm ha => ?nack, fun hm => ?acken⟩
  case ck =>
    have hd : doUop (.ckBus (.recv a)) s = .done { s with txn := if a then .readMore else .readDone } :=
      ht.elim (doUop_ckBus_ok he · rfl) (doUop_ckBus_ok he · rfl)
    exact (at_uop rfl hm).exec_next rfl hd
  case rcen => exact set_rcen s.pCtrl ▸ (at_uop rfl hm).exec_next rfl (doUop_set .rcen s)
  case waits => exact hm.elim (fun hm => (at_uop rfl hm).exec_waits hi) fun hm => (at_uop rfl hm).exec_waits hi
  case b0 => subst hd; exact (at_uop rfl hm).exec_next rfl (doUop_rdata false s)
  case b1 => subst hd; exact (at_uop rfl hm).exec_next rfl (doUop_rdata true s)
  case ack => subst ha; exact clear_ackdt s.pCtrl ▸ (at_uop rfl hm).exec_next rfl (doUop_wackdt false s)
  case nack => subst ha; exact set_ackdt s.pCtrl ▸ (at_uop rfl hm).exec_next rfl (doUop_wackdt true s)
  case acken => exact set_acken s.pCtrl ▸ (at_uop rfl hm).exec_last rfl (doUop_set .acken s)

/-- Settles O23: its CK is the table alone, which knows IDLE only; then HOLD, WDIV and WCTRL. -/
theorem initLoadsTheDivisorAndEnables : Obligations.InitLoadsTheDivisorAndEnables := by
  intro v s h0
  have at_ck (hm : s.mph = 0) : AtPrimitive (.init v) s 0 .ckInit := ⟨rfl, h0, hm, rfl⟩
  have at_hold (hm : s.mph = 1) : AtPrimitive (.init v) s 1 .hold := ⟨rfl, h0, hm, rfl⟩
  refine ⟨fun hm ht => ?ck, fun hm ht => (at_ck hm).exec_faults (txnCheck_error (txnTable_open ht).2),
    fun hm => (at_hold hm).exec_passes rfl, fun hm => (at_hold hm).exec_waits,
    fun hm => AtPrimitive.exec_next ⟨rfl, h0, hm, rfl⟩ rfl (doUop_wdiv v s),
    fun hm => AtPrimitive.exec_last ⟨rfl, h0, hm, rfl⟩ rfl (doUop_wctrl 0x80 s)⟩
  case ck =>
    have hd : doUop .ckInit s = .done s := (txnCheck_ok (by rw [ht]; rfl)).trans (by rw [← ht]; rfl)
    exact (at_ck hm).exec_next rfl hd

/-- Settles O24: its one μop is DLY, which checks nothing. -/
theorem delayAddsItsMilliseconds : Obligations.DelayAddsItsMilliseconds := by
  intro n s h0 hm
  exact AtPrimitive.exec_last (u := .dly n) ⟨rfl, h0, hm, rfl⟩ rfl rfl

/-- Settles O25: the first μop of each is its CK, which answers EN = 0 first, and then the table's cell. -/
theorem protocolMisuseFaultsBeforeTheBus : Obligations.ProtocolMisuseFaultsBeforeTheBus := by
  intro s b a d h0 hm
  have at_ck {i : Instr} {c : BusCmd} (hp : primsOf s.cfg i = [i]) (hu : (uopsOf i)[0]? = some (.ckBus c)) :
      AtPrimitive i s 0 (.ckBus c) := ⟨hp, h0, hm, hu⟩
  refine ⟨fun he => ?disabled, fun he => ?enabled⟩
  case disabled =>
    have faults {i : Instr} {c : BusCmd} (h : AtPrimitive i s 0 (.ckBus c)) :
        exec i s = .next (s.faulted .notEnabled) := h.exec_faults (doUop_ckBus_disabled he c)
    simp only [List.forall_mem_cons]
    exact ⟨faults (at_ck rfl rfl), faults (at_ck rfl rfl), faults (at_ck rfl rfl), faults (at_ck rfl rfl),
      faults (at_ck rfl rfl), List.forall_mem_nil _⟩
  case enabled =>
    have faults {i : Instr} {c : BusCmd} {f : FaultCode} {t : Txn} (h : AtPrimitive i s 0 (.ckBus c)) (ht : s.txn = t)
        (cell : txnTable c t = .error f) : exec i s = .next (s.faulted f) :=
      h.exec_faults (doUop_ckBus_error he ht cell)
    have faultsIn {i : Instr} {c : BusCmd} {f : FaultCode} {cells : List Txn} (h : AtPrimitive i s 0 (.ckBus c))
        (row : ∀ t ∈ cells, txnTable c t = .error f) (ht : s.txn ∈ cells) : exec i s = .next (s.faulted f) :=
      faults h rfl (row _ ht)
    refine ⟨fun ht => faults (at_ck rfl rfl) rfl (txnTable_open ht).1, fun ht => ?idle,
      faultsIn (at_ck rfl rfl) (by simp [txnTable]), faultsIn (at_ck rfl rfl) (by simp [txnTable]),
      faultsIn (at_ck rfl rfl) (by simp [txnTable]), faultsIn (at_ck rfl rfl) (by simp [txnTable]),
      fun ht => faults (at_ck rfl rfl) ht rfl⟩
    case idle =>
      simp only [List.forall_mem_cons]
      exact ⟨faults (at_ck rfl rfl) ht rfl, faults (at_ck rfl rfl) ht rfl, faults (at_ck rfl rfl) ht rfl,
        faults (at_ck rfl rfl) ht rfl, List.forall_mem_nil _⟩

end Sys2Proof.Machine
end

section
/-! SUPPORT. The obligations about the decoder commands (41_decoder.md R160 to R174): each command as its one μop, the
arithmetic of the raw value and of the two conversions, and the decimal spelling of a number. -/

namespace Sys2Proof.Machine

/-! ## The decoder's μops, and a command that is one of them (R161, R165, R172) -/

theorem doUop_asm (r : Reading) (s : State) :
    doUop (.asm r) s = if s.vB0 && s.vB1 then .done (writeRaw r (raw14 s.b0 s.b1) s) else .raises .unwritten := rfl

theorem doUop_dec (r : Reading) (s : State) :
    doUop (.dec r) s = if rawValid r s then .done (writeDecoded r s) else .raises .unwritten := rfl

theorem doUop_fmt (r : Reading) (s : State) :
    doUop (.fmt r) s = if decodedValid r s then .done (emit (readingStr r s) s) else .raises .unwritten := rfl

/-- A command at its last μop, one that checks `valid` before it computes, completes or is UNWRITTEN (R46, R212). -/
theorem AtPrimitive.exec_checked {i : Instr} {s t : State} {m : BitVec 3} {u : Uop} {valid : Bool}
    (h : AtPrimitive i s m u) (last : (uopsOf i)[m.toNat + 1]? = none)
    (hu : doUop u s = if valid then .done t else .raises .unwritten) :
    (valid = true → exec i s = .next t.completed) ∧ (valid = false → exec i s = .next (s.faulted .unwritten)) := by
  constructor <;> rintro rfl
  · exact h.exec_last last hu
  · exact h.exec_faults hu

/-! ## The raw value and the conversions (R160, R164, R168) -/

/-- The two shifted bytes do not overlap, so their `or` is their sum (R160). -/
theorem raw14_eq_ofNat (b0 b1 : Byte) : raw14 b0 b1 = BitVec.ofNat 14 (64 * b0.toNat + b1.toNat / 4) := by
  have high : (b0.setWidth 14 <<< 6).toNat = b0.toNat <<< 6 := by
    simp only [BitVec.toNat_shiftLeft, BitVec.toNat_setWidth, Nat.shiftLeft_eq]; omega
  have low : ((b1 >>> 2).setWidth 14).toNat = b1.toNat / 4 := by
    simp only [BitVec.toNat_setWidth, BitVec.toNat_ushiftRight, Nat.shiftRight_eq_div_pow]; omega
  apply BitVec.eq_of_toNat_eq
  rw [raw14, BitVec.toNat_or, high, low, ← Nat.shiftLeft_add_eq_or_of_lt (by omega), Nat.shiftLeft_eq, BitVec.toNat_ofNat]
  omega

/-- The two branches are the two signs of `Int.tdiv` (R8). -/
theorem truncDiv_eq_tdiv (n d : Int) : truncDiv n d = n.tdiv d := by
  unfold truncDiv
  split_ifs with h
  · exact (Int.tdiv_eq_ediv_of_nonneg h).symm
  · rw [← Int.tdiv_eq_ediv_of_nonneg (by omega), Int.neg_tdiv, neg_neg]

/-- Rounded over the divisor of R168, the value is nearest, and an exact half goes away from zero (R8). -/
theorem roundHalfAway_nearest (n : Int) :
    2 * (16384 * roundHalfAway n 16384 - n).natAbs ≤ 16384 ∧
    (2 * (16384 * roundHalfAway n 16384 - n).natAbs = 16384 → n.natAbs ≤ (16384 * roundHalfAway n 16384).natAbs) ∧
    (2 * (16384 * roundHalfAway n 16384 - n).natAbs = 16384 ↔ n % 16384 = 8192) := by
  unfold roundHalfAway
  split_ifs <;> omega

/-- The exact halves among the 14-bit raw values (R168). -/
theorem tc_half_iff {r : Nat} (hr : r < 2 ^ 14) :
    (17572 * (r : Int) - 76759040) % 16384 = 8192 ↔ r ∈ [2048, 6144, 10240, 14336] := by
  simp only [List.mem_cons, List.not_mem_nil, or_false]
  omega

/-! ## The decimal spelling (R8, R9) -/

theorem digit_toNat {n : Nat} (h : n < 10) : (digit n).toNat = 0x30 + n := by
  rw [digit, BitVec.toNat_ofNat, Nat.mod_eq_of_lt (by omega)]

theorem digit_range {d : Nat} (hd : d < 10) : 0x30 ≤ (digit d).toNat ∧ (digit d).toNat ≤ 0x39 := by
  rw [digit_toNat hd]; omega

/-- The number a string of decimal digits spells. -/
def decimalValue (ds : List Byte) : Nat := ds.foldl (fun n x => 10 * n + (x.toNat - 0x30)) 0

theorem decimalValue_append_digit (ds : List Byte) {d : Nat} (hd : d < 10) :
    decimalValue (ds ++ [digit d]) = 10 * decimalValue ds + d := by
  simp [decimalValue, digit_toNat hd]

/-- The bytes are digits, they spell `n`, and 0 stands first in the spelling of 0 only (R8). -/
structure Spells (ds : List Byte) (n : Nat) : Prop where
  digits : ∀ x ∈ ds, 0x30 ≤ x.toNat ∧ x.toNat ≤ 0x39
  value : decimalValue ds = n
  nonempty : ds ≠ []
  leading : ds.head? = some 0x30 → ds = [0x30]

theorem Spells.singleton {n : Nat} (hn : n < 10) : Spells [digit n] n where
  digits := by simpa using digit_range hn
  value := by simpa [decimalValue] using decimalValue_append_digit [] hn
  nonempty := List.cons_ne_nil _ _
  leading := by simp

/-- A further digit after those of a positive number puts no zero first. -/
theorem Spells.append_digit {ds : List Byte} {m d : Nat} (h : Spells ds m) (hm : 0 < m) (hd : d < 10) :
    Spells (ds ++ [digit d]) (10 * m + d) where
  digits x hx := by
    rcases List.mem_append.1 hx with hx | hx
    · exact h.digits x hx
    · exact List.mem_singleton.1 hx ▸ digit_range hd
  value := by rw [decimalValue_append_digit ds hd, h.value]
  nonempty := by simp
  leading hz := by
    rw [List.head?_append_of_ne_nil _ h.nonempty] at hz
    have hv := h.value
    rw [h.leading hz] at hv
    exact absurd hv hm.ne

theorem decFuel_spells (f n : Nat) (hn : n < f) : Spells (decFuel f n) n := by
  induction f generalizing n with
  | zero => omega
  | succ f ih =>
    unfold decFuel
    split_ifs with h
    · exact .singleton h
    · have extended := (ih (n / 10) (by omega)).append_digit (d := n % 10) (by omega) (by omega)
      rwa [Nat.div_add_mod] at extended

theorem dec_spells (n : Nat) : Spells (dec n) n := decFuel_spells (n + 1) n n.lt_succ_self

theorem decFuel_length_le (f : Nat) {n k : Nat} (hn : n < 10 ^ (k + 1)) : (decFuel f n).length ≤ k + 1 := by
  induction f generalizing n k with
  | zero => simp [decFuel]
  | succ f ih =>
    unfold decFuel
    split_ifs with h
    · simp
    · cases k with
      | zero => omega
      | succ k =>
        have := ih (n := n / 10) (k := k) (by omega)
        simpa using this

/-- A number below 10^k has at most k digits, and at least one. -/
theorem dec_length {n k : Nat} (hn : n < 10 ^ (k + 1)) : 1 ≤ (dec n).length ∧ (dec n).length ≤ k + 1 :=
  ⟨List.length_pos_iff.2 (dec_spells n).nonempty, decFuel_length_le (n + 1) hn⟩

/-! ## The lengths of the strings (R171, R173) -/

theorem rhStr_length (v : Int) : (rhStr v).length = (dec v.natAbs).length + 1 + (if v < 0 then 1 else 0) := by
  unfold rhStr signBytes; split_ifs <;> simp

theorem tStr_length (c : Int) : (tStr c).length = (dec (c.natAbs / 100)).length + 5 + (if c < 0 then 1 else 0) := by
  unfold tStr signBytes dec2; split_ifs <;> simp

/-! ## The obligations -/

/-- Settles O32: `dec` spells the number, and a negative value is short enough to leave room for its sign. -/
theorem displayStringsSpellTheirValues : Obligations.DisplayStringsSpellTheirValues := by
  refine ⟨fun v lo hi => ?humidity, fun c lo hi => ?temperature⟩
  case humidity =>
    have spelled := dec_spells v.natAbs
    have len : 2 ≤ (rhStr v).length ∧ (rhStr v).length ≤ 4 := by
      rw [rhStr_length]
      split_ifs
      · have := dec_length (n := v.natAbs) (k := 0) (by omega); omega
      · have := dec_length (n := v.natAbs) (k := 2) (by omega); omega
    exact ⟨dec v.natAbs, rfl, spelled.digits, spelled.value, spelled.nonempty, spelled.leading, len⟩
  case temperature =>
    have spelled := dec_spells (c.natAbs / 100)
    have tens : c.natAbs % 100 / 10 < 10 := by omega
    have units : c.natAbs % 100 % 10 < 10 := by omega
    have len : 6 ≤ (tStr c).length ∧ (tStr c).length ≤ 8 := by
      rw [tStr_length]
      split_ifs
      · have := dec_length (n := c.natAbs / 100) (k := 1) (by omega); omega
      · have := dec_length (n := c.natAbs / 100) (k := 2) (by omega); omega
    refine ⟨dec (c.natAbs / 100), digit (c.natAbs % 100 / 10), digit (c.natAbs % 100 % 10), ?string,
      List.forall_mem_cons.2 ⟨digit_range tens, List.forall_mem_cons.2 ⟨digit_range units, spelled.digits⟩⟩, ?value,
      spelled.nonempty, spelled.leading, len⟩
    case string => simp [tStr, signBytes, dec2]
    case value =>
      change 100 * decimalValue _ + _ + _ = _
      rw [spelled.value, digit_toNat tens, digit_toNat units]
      omega

/-- Settles O26: the check is on both bytes, and `raw14` is the sum of its two fields. -/
theorem assemblyWritesTheRawValue : Obligations.AssemblyWritesTheRawValue := by
  intro s h0 hm
  obtain ⟨rhDone, rhFaults⟩ := AtPrimitive.exec_checked (i := .asmRh) ⟨rfl, h0, hm, rfl⟩ rfl (doUop_asm .rh s)
  obtain ⟨tDone, tFaults⟩ := AtPrimitive.exec_checked (i := .asmT) ⟨rfl, h0, hm, rfl⟩ rfl (doUop_asm .t s)
  refine ⟨fun hb0 hb1 => ?written, fun hb => ?unwritten⟩
  case written =>
    have valid : (s.vB0 && s.vB1) = true := by simp [hb0, hb1]
    rw [← raw14_eq_ofNat]
    exact ⟨rhDone valid, tDone valid⟩
  case unwritten =>
    have invalid : (s.vB0 && s.vB1) = false := by simpa [imp_iff_not_or] using hb
    exact ⟨rhFaults invalid, tFaults invalid⟩

/-- Settles O27: DECRH's one μop checks V_RAW_RH and truncates by `Int.tdiv`. -/
theorem humidityIsTruncatedTowardZero : Obligations.HumidityIsTruncatedTowardZero := by
  intro s h0 hm
  rw [← truncDiv_eq_tdiv]
  exact AtPrimitive.exec_checked ⟨rfl, h0, hm, rfl⟩ rfl (doUop_dec .rh s)

/-- Settles O28: the integer is `tcOf` of the raw value. -/
theorem temperatureIsRoundedHalfAway : Obligations.TemperatureIsRoundedHalfAway := by
  intro s h0 hm
  obtain ⟨converts, faults⟩ := AtPrimitive.exec_checked (i := .decT) ⟨rfl, h0, hm, rfl⟩ rfl (doUop_dec .t s)
  obtain ⟨near, away, half⟩ := roundHalfAway_nearest (17572 * s.rawT.toNat - 76759040)
  have at_2048 (hr : s.rawT.toNat = 2048) : tcOf s.rawT.toNat = -2489 := by rw [hr]; rfl
  exact ⟨fun hv => ⟨tcOf s.rawT.toNat, converts hv, near, away, half.trans (tc_half_iff s.rawT.isLt), at_2048⟩, faults⟩

/-- Settles O31: FMTRH and FMTT are one μop each, which checks the valid bit and emits the string. -/
theorem formatAppendsTheString : Obligations.FormatAppendsTheString := by
  intro s h0 hm
  obtain ⟨rhEmits, rhFaults⟩ := AtPrimitive.exec_checked (i := .fmtRh) ⟨rfl, h0, hm, rfl⟩ rfl (doUop_fmt .rh s)
  obtain ⟨tEmits, tFaults⟩ := AtPrimitive.exec_checked (i := .fmtT) ⟨rfl, h0, hm, rfl⟩ rfl (doUop_fmt .t s)
  exact ⟨rhEmits, rhFaults, tEmits, tFaults⟩

end Sys2Proof.Machine
end

section
/-! SUPPORT. The obligations about the issue of a command and the compound commands' lists (42_sequencer.md R190 to
R194): no μop and no completion step reads or writes PH, MPH, BUSY or CUR, so a primitive runs in a compound command as
it does alone. -/

namespace Sys2Proof.Machine

/-! ## The control fields -/

/-- The state with its PH, MPH, BUSY and CUR replaced (R42, R43). -/
def State.withControl (k : BitVec 5) (m : BitVec 3) (b : Bool) (w : Word) (s : State) : State :=
  { s with ph := k, mph := m, busy := b, cur := w }

/-- The result of a μop with the control fields replaced. -/
def UopResult.withControl (k : BitVec 5) (m : BitVec 3) (b : Bool) (w : Word) : UopResult → UopResult
  | .done t => .done (t.withControl k m b w)
  | .holds => .holds
  | .raises c => .raises c
  | .stops f => .stops f

section
variable (k : BitVec 5) (m : BitVec 3) (b : Bool) (w : Word)

theorem txnCheck_withControl (c : BusCmd) (s : State) :
    txnCheck c (s.withControl k m b w) = (txnCheck c s).withControl k m b w := by
  have same_txn : (s.withControl k m b w).txn = s.txn := rfl
  cases h : txnTable c s.txn with
  | error f => rw [txnCheck_error h, txnCheck_error (same_txn ▸ h)]; rfl
  | ok n => rw [txnCheck_ok h, txnCheck_ok (same_txn ▸ h)]; cases c <;> rfl

/-- No μop reads or writes a control field (R44). -/
theorem doUop_withControl (u : Uop) (s : State) :
    doUop u (s.withControl k m b w) = (doUop u s).withControl k m b w := by
  have same_en : (s.withControl k m b w).en = s.en := rfl
  have same_idleP : (s.withControl k m b w).idleP = s.idleP := rfl
  cases u with
  | hold => simp only [doUop, same_idleP]; split_ifs <;> rfl
  | ckBus c => simp only [doUop_ckBus, same_en, txnCheck_withControl]; split_ifs <;> rfl
  | ckInit => exact txnCheck_withControl k m b w .init s
  | wdata v => simp only [doUop_wdata, same_en]; split_ifs <;> rfl
  | rdata d => cases d <;> rfl
  | asm r =>
    show (if s.vB0 && s.vB1 then _ else _) = UopResult.withControl k m b w (if s.vB0 && s.vB1 then _ else _)
    split_ifs <;> cases r <;> rfl
  | dec r =>
    have same_valid : rawValid r (s.withControl k m b w) = rawValid r s := by cases r <;> rfl
    simp only [doUop_dec, same_valid]
    split_ifs <;> cases r <;> rfl
  | fmt r =>
    have same_valid : decodedValid r (s.withControl k m b w) = decodedValid r s := by cases r <;> rfl
    simp only [doUop_fmt, same_valid]
    split_ifs <;> cases r <;> rfl
  | set | wackdt | wdiv | wctrl | dly => rfl

/-- Neither does a completion step (R230). -/
theorem periphEffect_withControl (op : PeriphOp) (s : State) :
    periphEffect op (s.withControl k m b w) = (periphEffect op s).withControl k m b w := by
  cases op with
  | pRx => simp only [periphEffect, completeRx, drawnByte, afterDrawByte, State.withControl]; cases s.rxIn <;> rfl
  | pTx => simp only [periphEffect, completeTx, drawnBit, afterDrawBit, State.withControl]; cases s.ackIn <;> rfl
  | pStart | pRstart | pStop | pAck => rfl

end

/-! ## A command at one of its μops (R43 to R46) -/

section
variable {i p : Instr} {u : Uop} {s t : State} {k : BitVec 5} {m : BitVec 3}

/-- The step of any command at a known μop, by the μop's result. -/
theorem exec_at (hk : s.ph = k) (hm : s.mph = m) (hp : (primsOf s.cfg i)[k.toNat]? = some p)
    (hu : (uopsOf p)[m.toNat]? = some u) :
    exec i s = settle (primsOf s.cfg i).length (uopsOf p).length s (doUop u s) := by
  rw [exec_eq_driverStep, driverStep_at (hk ▸ hp) (hm ▸ hu)]

/-- At the last μop of the last primitive, a μop that completes completes the command (R46). -/
theorem exec_last (hk : s.ph = k) (hm : s.mph = m) (hp : (primsOf s.cfg i)[k.toNat]? = some p)
    (lastPrim : (primsOf s.cfg i)[k.toNat + 1]? = none) (hu : (uopsOf p)[m.toNat]? = some u)
    (lastUop : (uopsOf p)[m.toNat + 1]? = none) (hd : doUop u s = .done t) : exec i s = .next t.completed := by
  obtain ⟨hph, hmph, -⟩ := doUop_keeps_control hd
  have hnP := List.getElem?_eq_none_iff.1 lastPrim
  have hnU := List.getElem?_eq_none_iff.1 lastUop
  rw [exec_at hk hm hp hu, hd, settle_done, advance, hph, hmph, hk, hm, if_neg (by omega), if_neg (by omega)]
  rfl

end

/-- A command's list holds primitives, and each of them is its own one-entry list (R43, R194). -/
theorem primsOf_primitive {c : Config} {i p : Instr} (hp : p ∈ primsOf c i) (c' : Config) : primsOf c' p = [p] := by
  have all : ∀ p ∈ primsOf c i, primsOf c' p = [p] := by
    cases i <;> simp [primsOf, cycleList, measList, asmInstr, decInstr]
  exact all p hp

/-- The advance by the control fields alone (R46). -/
theorem advance_withControl (nP nU : Nat) (k : BitVec 5) (m : BitVec 3) (b : Bool) (w : Word) (s : State) :
    advance nP nU (s.withControl k m b w) =
      if m.toNat + 1 < nU then s.withControl k (m + 1) b w
      else if k.toNat + 1 < nP then s.withControl (k + 1) 0 b w else s.completed := rfl

/-- A μop that completes leaves the control fields as they were. -/
theorem withControl_of_doUop {u : Uop} {s t : State} (h : doUop u s = .done t) :
    t = t.withControl s.ph s.mph s.busy s.cur := by
  obtain ⟨hph, hmph, hbusy, hcur, -⟩ := doUop_keeps_control h
  rw [← hph, ← hmph, ← hbusy, ← hcur]
  rfl

/-- Where a primitive's step answers a next state, its compound command does the same at its phase, and goes on to the
next primitive or completes where the primitive completes (R46, R194). -/
theorem exec_compound_of_primitive {c p : Instr} {s t : State} (hp : (primsOf s.cfg c)[s.ph.toNat]? = some p)
    (hb : s.busy = true) (hh : s.halt = false) (h : exec p { s with ph := 0 } = .next t) :
    (t.busy = true ∨ t.halt = true → exec c s = .next { t with ph := s.ph }) ∧
    (t.busy = false → t.halt = false →
      exec c s = .next (if s.ph.toNat + 1 < (primsOf s.cfg c).length
        then { t with ph := s.ph + 1, busy := true, cur := s.cur } else t)) := by
  have alone : primsOf s.cfg p = [p] := primsOf_primitive (List.mem_of_getElem? hp) s.cfg
  obtain ⟨u, hu⟩ : ∃ u, (uopsOf p)[s.mph.toNat]? = some u := by
    obtain ⟨q, u, hq, hu, -⟩ := driverStep_next (exec_eq_driverStep p _ ▸ h)
    obtain rfl : p = q := by simpa [alone] using hq
    exact ⟨u, hu⟩
  have hprim : exec p { s with ph := 0 } = settle 1 (uopsOf p).length { s with ph := 0 }
      ((doUop u s).withControl 0 s.mph s.busy s.cur) := by
    rw [← doUop_withControl, exec_at (s := { s with ph := 0 }) (k := 0) (m := s.mph) rfl rfl (by simp [alone]) hu,
      alone]
    rfl
  rw [hprim] at h
  rw [exec_at rfl rfl hp hu]
  cases hd : doUop u s with
  | done t' =>
    rw [hd] at h
    obtain rfl : advance 1 (uopsOf p).length (t'.withControl 0 s.mph s.busy s.cur) = t := Host.Outcome.next.inj h
    have hhalt : t'.halt = false := by
      obtain ⟨-, -, -, -, hhalt, -⟩ := doUop_keeps_control hd
      exact hhalt.trans hh
    rw [withControl_of_doUop hd, settle_done]
    simp only [advance_withControl]
    by_cases hlt : s.mph.toNat + 1 < (uopsOf p).length
    · simp only [if_pos hlt]
      exact ⟨fun _ => rfl, fun h => nomatch hb.symm.trans h⟩
    · have single : ¬ (0 : BitVec 5).toNat + 1 < 1 := by decide
      simp only [if_neg hlt, if_neg single]
      refine ⟨fun h => absurd h (by simp [State.completed, State.withControl, hhalt]), fun _ _ => ?_⟩
      rw [hb]
      split_ifs <;> rfl
  | holds =>
    rw [hd] at h
    obtain rfl := Host.Outcome.next.inj h
    exact ⟨fun _ => rfl, fun h => nomatch hb.symm.trans h⟩
  | raises f =>
    rw [hd] at h
    obtain rfl := Host.Outcome.next.inj h
    exact ⟨fun _ => rfl, fun _ h => nomatch h⟩
  | stops f => rw [hd] at h; cases h

/-- Every agent's step keeps the configuration (R5). -/
theorem cfg_stepKeeps (c : Config) : StepKeeps fun s => s.cfg = c where
  turn hs _ := hs
  uop hs _ hd := by
    obtain ⟨-, -, -, -, -, hcfg, -⟩ := doUop_keeps_control hd
    simpa [hcfg] using hs
  fault hs _ _ _ _ := hs
  periph {s op} hs _ := by obtain ⟨_, _, _, _, _, _, _, h⟩ := periphEffect_eq op s; rwa [h]
  read {s} off hs := by obtain ⟨_, _, h⟩ := hostRead_eq off s; rwa [h]
  issue hs _ _ _ := by simpa using hs
  illegal w hs _ _ := hs
  reset _ hu _ := hu

/-- A host write of CMD while BUSY = 0 is taken at once, as an issue (R236). -/
theorem step_commandWrite {s : State} {w : Word} {ts : List Turn} (hts : s.turns = .write 0 w :: ts)
    (hb : s.busy = false) : step s = .next (issue w { s with turns := ts }) :=
  step_takeTurn hts (by simp [hostWaits, hb])

/-- The step that issues a legal word, while the block is neither busy nor halted (R190, R236). -/
theorem step_issue {s : State} {w : Word} {ts : List Turn} {i : Instr} (hts : s.turns = .write 0 w :: ts)
    (hb : s.busy = false) (hh : s.halt = false) (hd : decode w = .ok i) :
    step s = .next (clearAtIssue i { s with turns := ts, cur := w, ph := 0, mph := 0, busy := true }) := by
  simp [step_commandWrite hts hb, issue, hh, hd, latch]

/-! ## The obligations about the issue and the lists -/

/-- Settles O7: an issue with BUSY = 0 is taken at once, and `issue` answers by HALT and the decoded word. -/
theorem issueLatchesFaultsOrDrops : Obligations.IssueLatchesFaultsOrDrops := by
  intro s w ts hts hb
  refine ⟨fun hh => ?dropped, fun hh hw => ?illegal, fun hh hw => ?measRh, fun hh hw => ?measT,
    fun hh hw => ?cycle, fun i hh hd hi => ?other⟩
  case dropped => simp [step_commandWrite hts hb, issue, hh]
  case illegal =>
    obtain ⟨e, he⟩ := (illegalWordsMatchNoRow w).1.2 hw
    simp [step_commandWrite hts hb, issue, hh, he, raiseFault, latch, State.faulted]
  case measRh => subst hw; exact step_issue hts hb hh (decode_encode .measRh)
  case measT => subst hw; exact step_issue hts hb hh (decode_encode .measT)
  case cycle => subst hw; exact step_issue hts hb hh (decode_encode .cycle)
  case other =>
    rw [step_issue hts hb hh hd]
    cases i with
    | measRh | measT | cycle => cases hi
    | _ => rfl

/-- Settles O34: the lists by unfolding them, the runs by `exec_compound_of_primitive`, and no agent writes the
configuration. -/
theorem compoundCommandsRunTheirPrimitives : Obligations.CompoundCommandsRunTheirPrimitives := by
  refine ⟨fun c => ⟨rfl, rfl, rfl⟩, fun c p s t _ => exec_compound_of_primitive, fun s t i h => ?_⟩
  have hcfg : t.cfg = s.cfg := (cfg_stepKeeps s.cfg).step rfl h
  rw [hcfg]

/-- Settles O35: the first μop of each list is the CK of START, the last is a conversion or the second string. -/
theorem compoundCommandsOpenAndComplete : Obligations.CompoundCommandsOpenAndComplete := by
  intro s
  have at_start (hp : s.ph = 0) (hm : s.mph = 0) : ∀ i ∈ [Instr.measRh, .measT, .cycle],
      exec i s = settle (primsOf s.cfg i).length 3 s (doUop (.ckBus .start) s) := by
    intro i hi
    refine exec_at (p := .start) hp hm ?_ rfl
    simp only [List.mem_cons, List.not_mem_nil, or_false] at hi
    rcases hi with rfl | rfl | rfl <;> rfl
  refine ⟨fun hp hm he ht i hi => ?opens, fun hp hm i hi => ⟨fun he => ?disabled, fun he ht => ?txnOpen⟩,
    fun hp hm hv => ?humidity, fun hp hm hv => ⟨tcOf s.rawT.toNat, ?temperature, (roundHalfAway_nearest _).1⟩,
    fun hp hm hv => ?string⟩
  case opens => rw [at_start hp hm i hi, doUop_ckBus_ok he ht rfl]; simp [advance, ckClears, hm]
  case disabled => rw [at_start hp hm i hi, doUop_ckBus_disabled he]; rfl
  case txnOpen => rw [at_start hp hm i hi, doUop_ckBus_error he rfl (txnTable_open ht).1]; rfl
  case humidity =>
    rw [← truncDiv_eq_tdiv]
    exact exec_last (p := .decRh) hp hm rfl rfl rfl rfl (if_pos hv)
  case temperature =>
    exact exec_last (p := .decT) hp hm rfl rfl rfl rfl (if_pos hv)
  case string =>
    exact exec_last (p := .fmtT) hp hm rfl rfl rfl rfl (if_pos hv)

end Sys2Proof.Machine
end

section
/-! SUPPORT. A command under a fair peripheral (42_sequencer.md R191 to R194, 60_exceptions.md R234): from a quiet
peripheral each μop completes, and an operation it starts completes in the next step, so a command that does not fault
runs to its end in as many steps as its μops and operations are (log 2). -/

namespace Sys2Proof.Machine

/-! ## What a list of μops comes to -/

/-- The state after the operation a μop has started, if it has, is completed (R230). -/
def Uop.answered (u : Uop) (s : State) : State :=
  match u.starts with
  | some op => periphEffect op s
  | none => s

/-- The steps of a μop and of the operation it starts (log 2). -/
def Uop.fairSteps (u : Uop) : Nat := if u.starts.isSome then 2 else 1

/-- The steps of a list of μops under a fair peripheral. -/
def fairSteps (us : List Uop) : Nat := (us.map Uop.fairSteps).sum

/-- The μops, each answered at once by the peripheral, take the state to another without a fault; the control fields,
which no μop reads, stand still. -/
inductive Completes : List Uop → State → State → Prop where
  | nil (s : State) : Completes [] s s
  | cons {u : Uop} {us : List Uop} {s t v : State} :
      doUop u s = .done t → Completes us (u.answered t) v → Completes (u :: us) s v

/-- The first μop, by the state its operation leaves. -/
theorem Completes.step {u : Uop} {us : List Uop} {s t t' v : State} (hd : doUop u s = .done t)
    (ha : u.answered t = t') (rest : Completes us t' v) : Completes (u :: us) s v := .cons hd (ha ▸ rest)

theorem Completes.append {us vs : List Uop} {s t v : State} (h : Completes us s t) (h' : Completes vs t v) :
    Completes (us ++ vs) s v := by
  induction h with
  | nil => exact h'
  | cons hd _ ih => exact .cons hd (ih h')

theorem answered_withControl (k : BitVec 5) (m : BitVec 3) (b : Bool) (w : Word) (u : Uop) (s : State) :
    u.answered (s.withControl k m b w) = (u.answered s).withControl k m b w := by
  unfold Uop.answered
  split
  · exact periphEffect_withControl k m b w _ s
  · rfl

theorem answered_cfg (u : Uop) (s : State) : (u.answered s).cfg = s.cfg := by
  unfold Uop.answered
  split
  · obtain ⟨-, -, -, -, -, -, -, -, hcfg, -⟩ := periphEffect_keeps_control ‹_› s
    exact hcfg
  · rfl

theorem fairSteps_append (us vs : List Uop) : fairSteps (us ++ vs) = fairSteps us + fairSteps vs := by
  simp [fairSteps]

/-! ## One μop under a fair peripheral -/

/-- The peripheral is fair, enabled and idle, no other agent has a turn and no fault is recorded. -/
structure FairlyAtRest (s : State) : Prop where
  turns : s.turns = []
  halt : s.halt = false
  fair : s.cfg.periphFair = true
  en : s.en = true
  idle : s.idleP = true

/-- With the peripheral idle and no turn named, the step is the driver's (log 2). -/
theorem step_of_idle {s : State} (hts : s.turns = []) (hi : s.idleP = true) : step s = driverTurn s := by
  have none_enabled : enabledOp s = none := by
    simp [enabledOp, periphEnabled_eq, (idleP_iff s).1 hi]
  simp [step, hts, unnamedStep, none_enabled]

/-- With one operation pending and no turn named, the step of a fair peripheral completes it (R234, log 2). -/
theorem step_of_pending {s : State} {op : PeriphOp} (hts : s.turns = []) (hfair : s.cfg.periphFair = true)
    (he : s.en = true) (hop : opBit op s = true) (hcount : s.pendingCount ≤ 1) :
    step s = .next (periphEffect op s) := by
  have not_idle : s.idleP = false := by
    by_contra h
    simp [(idleP_iff s).1 (by simpa using h) op] at hop
  obtain ⟨op', hop'⟩ := enabledOp_of_not_idleP not_idle he
  have enabled := enabledOp_some hop'
  obtain rfl : op' = op := pending_unique hcount (by simpa [periphEnabled_eq, he] using enabled) hop
  simp [step, hts, unnamedStep, hop', hfair, periphTurn, enabled]

/-- A μop that completes takes one step, and the operation it starts the next one, after which the peripheral is idle
again. -/
theorem FairlyAtRest.run_uop {s t : State} {i p : Instr} {u : Uop} (hs : FairlyAtRest s) (h : AtUop s i p u)
    (hd : doUop u s = .done t) :
    let n := advance (primsOf s.cfg i).length (uopsOf p).length t
    Sys2Proof.core.run u.fairSteps s = .next (u.answered n) ∧ FairlyAtRest (u.answered n) := by
  intro n
  obtain ⟨-, -, -, -, hhalt, hcfg, -, -, -, hturns, -⟩ := doUop_keeps_control hd
  have hpend := pendingOk_of_idleP hs.idle
  have driver : step s = .next n := by rw [step_of_idle hs.turns hs.idle, driverTurn_at h, hd, settle_done]
  have turns : n.turns = [] := by simp [n, hturns, hs.turns]
  have halt : n.halt = false := by simp [n, hhalt, hs.halt]
  have fair : n.cfg.periphFair = true := by simp [n, hcfg, hs.fair]
  have en : n.en = true := by simpa [n, State.en] using en_doUop (List.mem_of_getElem? h.uop) hd hs.en
  unfold Uop.answered Uop.fairSteps
  cases hu : u.starts with
  | none =>
    have idle : n.idleP = true := by
      rw [idleP_congr fun a => opBit_advance a _ _ t, idleP_doUop hpend h hd hu, hs.idle]
    exact ⟨run_succ_next driver 0, turns, halt, fair, en, idle⟩
  | some op =>
    have pending : opBit op n = true := by simp [n, opBit_doUop hpend h hd, hu]
    have count : n.pendingCount ≤ 1 := by
      rw [pendingCount_congr fun a => opBit_advance a _ _ t]
      exact pendingCount_doUop hpend h hd
    obtain ⟨-, -, -, -, hhalt', -, -, -, hcfg', hturns'⟩ := periphEffect_keeps_control op n
    refine ⟨?_, hturns'.trans turns, hhalt'.trans halt, hcfg' ▸ fair, (periphEffect_en op n).trans en,
      idleP_periphEffect count pending⟩
    exact (run_succ_next driver 1).trans (run_succ_next (step_of_pending turns fair en pending count) 0)

/-! ## A whole command -/

/-- The μops `us` are those the command `i` still owes at PH = `k`, MPH = `m`: the rest of the primitive, and the
primitives after it (R43, R44). -/
def Owes (c : Config) (i : Instr) (k : BitVec 5) (m : BitVec 3) (us : List Uop) : Prop :=
  ∃ p, (primsOf c i)[k.toNat]? = some p ∧ m.toNat < (uopsOf p).length ∧
    us = (uopsOf p).drop m.toNat ++ ((primsOf c i).drop (k.toNat + 1)).flatMap uopsOf

/-- At PH = MPH = 0 a command owes all its μops. -/
theorem owes_all (c : Config) (i : Instr) : Owes c i 0 0 ((primsOf c i).flatMap uopsOf) := by
  cases hl : primsOf c i with
  | nil => exact absurd hl (primsOf_ne_nil c i)
  | cons p ps =>
    obtain ⟨u, hu, -⟩ := first_uop_of_prim (c := c) (i := i) (q := p) (by simp [hl])
    exact ⟨p, by simp [hl], (List.getElem?_eq_some_iff.1 hu).1, by simp [hl]⟩

/-- The advance after the first of the μops owed leaves the others owed, or completes the command (R46). -/
theorem Owes.advance {c : Config} {i : Instr} {k : BitVec 5} {m : BitVec 3} {u : Uop} {us : List Uop}
    (h : Owes c i k m (u :: us)) (w : Word) :
    ∃ p, (primsOf c i)[k.toNat]? = some p ∧ (uopsOf p)[m.toNat]? = some u ∧
      ∀ t : State, let n := advance (primsOf c i).length (uopsOf p).length (t.withControl k m true w)
        (us = [] ∧ n = t.completed) ∨ ∃ k' m', Owes c i k' m' us ∧ n = t.withControl k' m' true w := by
  obtain ⟨p, hp, hm, hus⟩ := h
  rw [List.drop_eq_getElem_cons hm, List.cons_append, List.cons.injEq] at hus
  obtain ⟨rfl, rfl⟩ := hus
  have hk := (List.getElem?_eq_some_iff.1 hp).1
  have hkLe := primsOf_length_le c i
  have hmLe := uopsOf_length_le p
  refine ⟨p, hp, List.getElem?_eq_getElem hm, fun t => ?_⟩
  rw [advance_withControl]
  split_ifs with hnext hprim
  · have hm' : (m + 1).toNat = m.toNat + 1 := by rw [BitVec.toNat_add]; simp; omega
    exact .inr ⟨k, m + 1, ⟨p, hp, hm' ▸ hnext, by rw [hm']⟩, rfl⟩
  · have hk' : (k + 1).toNat = k.toNat + 1 := by rw [BitVec.toNat_add]; simp; omega
    obtain ⟨v, hv, -⟩ := first_uop_of_prim (List.getElem_mem hprim)
    refine .inr ⟨k + 1, 0, ⟨_, by rw [hk']; exact List.getElem?_eq_getElem hprim,
      (List.getElem?_eq_some_iff.1 hv).1, ?_⟩, rfl⟩
    rw [hk', List.drop_eq_nil_of_le (by omega), List.drop_eq_getElem_cons hprim]
    rfl
  · exact .inl ⟨by rw [List.drop_eq_nil_of_le (by omega), List.drop_eq_nil_of_le (by omega)]; rfl, rfl⟩

/-- Where the μops a command owes complete, the fair run takes it to its end. -/
theorem run_of_completes {i : Instr} {w : Word} (hw : decode w = .ok i) {us : List Uop} {s v : State}
    (h : Completes us s v) : ∀ {k m}, Owes s.cfg i k m us → FairlyAtRest s →
      Sys2Proof.core.run (fairSteps us) (s.withControl k m true w) = .next v.completed := by
  induction h with
  | nil => exact fun ⟨p, _, hm, h⟩ => absurd h (by simp; omega)
  | @cons u us s t v hd hrest ih =>
    intro k m howes hs
    obtain ⟨p, hp, hu, hadv⟩ := howes.advance w
    have at_u : AtUop (s.withControl k m true w) i p u := ⟨rfl, hs.halt, hw, hp, hu⟩
    have hs' : FairlyAtRest (s.withControl k m true w) := ⟨hs.turns, hs.halt, hs.fair, hs.en, hs.idle⟩
    have hd' : doUop u (s.withControl k m true w) = .done (t.withControl k m true w) := by
      rw [doUop_withControl, hd]; rfl
    obtain ⟨hrun, hrested⟩ := hs'.run_uop at_u hd'
    have steps : fairSteps (u :: us) = u.fairSteps + fairSteps us := by simp [fairSteps]
    rw [steps, run_add _ _ hrun]
    rcases hadv t with ⟨rfl, hn⟩ | ⟨k', m', howes', hn⟩
    · cases hrest
      exact congrArg _ ((congrArg _ hn).trans (answered_withControl 0 0 false 0 u t))
    · replace hn := (congrArg u.answered hn).trans (answered_withControl k' m' true w u t)
      have same_cfg : (u.answered t).cfg = s.cfg := by
        obtain ⟨-, -, -, -, -, hcfg, -⟩ := doUop_keeps_control hd
        exact (answered_cfg u t).trans hcfg
      obtain ⟨turns, halt, fair, en, idle⟩ : FairlyAtRest ((u.answered t).withControl k' m' true w) := hn ▸ hrested
      exact (congrArg _ hn).trans (ih (same_cfg ▸ howes') ⟨turns, halt, fair, en, idle⟩)

end Sys2Proof.Machine
end

section
/-! SUPPORT. A measurement's primitives from a quiet peripheral (40_bus_phases.md R133 to R145, 41_decoder.md R160 to
R174): what the μops of each come to, and the whole lists of R194. -/

namespace Sys2Proof.Machine

/-! ## The quiet peripheral, by its registers (R31, R32, R37) -/

/-- EN is 1, no trigger is set and no transmission is pending. -/
structure Quiet (s : State) : Prop where
  ctrl : s.pCtrl &&& 0x9F = 0x80
  stat : s.pStat.getLsbD 0 = false

theorem quiet_iff (s : State) : Quiet s ↔ s.en = true ∧ s.idleP = true := by
  have byte : ∀ x : Byte, x &&& 0x9F = 0x80 ↔ x.getLsbD 7 = true ∧ (x &&& 0x1F == 0) = true := by decide
  simp only [State.en, State.idleP, State.txBusy, Bool.and_eq_true, Bool.not_eq_true', ← and_assoc, ← byte]
  exact ⟨fun h => ⟨h.ctrl, h.stat⟩, fun h => ⟨h.1, h.2⟩⟩

theorem Quiet.en {s : State} (q : Quiet s) : s.en = true := ((quiet_iff s).1 q).1

theorem Quiet.hold {s : State} (q : Quiet s) : doUop .hold s = .done s := doUop_hold_idle ((quiet_iff s).1 q).2

/-- A trigger set, and cleared by its completion, leaves P_CTRL but for its reserved bit as it was (R31, R38). -/
theorem trigger_set_then_cleared {x : Byte} (h : x &&& 0x9F = 0x80) (k : Trigger) :
    withBit (withBit (x &&& ctrlMask) k.bit true &&& ctrlMask) k.bit false = x &&& ctrlMask := by
  revert x; cases k <;> decide

/-- P_CTRL of an enabled idle peripheral once the acknowledge value `v` is written (R31). -/
def ackCtrl (v : Bool) : Byte := if v then 0xA0 else 0x80

/-- WACKDT leaves a quiet P_CTRL with EN and the acknowledge value alone (R31, R140). -/
theorem ackdt_written {x : Byte} (h : x &&& 0x9F = 0x80) (v : Bool) :
    withBit (x &&& ctrlMask &&& ctrlMask) 5 v &&& ctrlMask = ackCtrl v := by
  revert x v; decide

theorem ackCtrl_quiet (v : Bool) : ackCtrl v &&& 0x9F = 0x80 := by revert v; decide

/-- The acknowledge sent is the value written (R140, R230). -/
theorem ack_answered {v : Bool} {s : State} (h : s.pCtrl = ackCtrl v) :
    (Uop.set .acken).answered { s with pCtrl := withBit (s.pCtrl &&& ctrlMask) Trigger.acken.bit true &&& ctrlMask } =
      { s with busLog := s.busLog ++ [.ackout v] } := by
  have byte : ∀ v, let pending := withBit (ackCtrl v &&& ctrlMask) Trigger.acken.bit true &&& ctrlMask
      withBit pending Trigger.acken.bit false = ackCtrl v ∧ pending.getLsbD 5 = v := by decide
  obtain ⟨cleared, sent⟩ := h ▸ byte v
  simp only [Uop.answered, Uop.starts, Trigger.op, periphEffect, logEvent, clearTrigger, State.ackdt, cleared, sent]

/-- BUSY set, and cleared by P_TX with the acknowledge bit drawn, leaves that bit (R32, R230). -/
theorem busy_set_then_answered {x : Byte} (h : x.getLsbD 0 = false) (k : Bool) :
    withBit (withBit (withBit x 0 true) 1 k) 0 false = withBit x 1 k := by
  revert x k; decide

/-- Of two writes of one bit the later one stands. -/
theorem withBit_withBit (x : Byte) {j : Nat} (hj : j < 8) (a b : Bool) :
    withBit (withBit x j a) j b = withBit x j b := by
  apply BitVec.eq_of_getLsbD_eq
  intro n _
  simp only [getLsbD_withBit _ hj]
  split_ifs <;> rfl

/-- Reserved bit 6 is none of those that keep the peripheral quiet (R31). -/
theorem ctrlMask_quiet {x : Byte} (h : x &&& 0x9F = 0x80) : x &&& ctrlMask &&& 0x9F = 0x80 :=
  (BitVec.and_assoc ..).trans h

/-! ## What a bus primitive comes to -/

/-- The state after START, RSTART or STOP, whose check leads to `n` and whose completion logs `e` (R133 to R135). -/
def State.conditioned (c : BusCmd) (n : Txn) (e : BusEvent) (s : State) : State :=
  { ckClears c { s with txn := n } with pCtrl := s.pCtrl &&& ctrlMask, busLog := s.busLog ++ [e] }

/-- The state after SEND `b`, whose check leads to `n`, the slave answering `k` and then `ks` (R136). -/
def State.sent (b : Byte) (n : Txn) (k : Bool) (ks : List Bool) (s : State) : State :=
  { s with txn := n, pData := b, pStat := withBit s.pStat 1 k, ackIn := ks, busLog := s.busLog ++ [.tx b k] }

/-- The state after RECV `a`, `d`, whose check leads to `n`, the slave answering `x` and then `xs` (R139, R140). -/
def State.received (a d : Bool) (n : Txn) (x : Byte) (xs : List Byte) (s : State) : State :=
  { writeByteReg d x s with
    txn := n, pData := x, rxIn := xs, pCtrl := ackCtrl (!a), busLog := s.busLog ++ [.rx x, .ackout (!a)] }

section
variable {s : State} (q : Quiet s)
include q

theorem Quiet.conditioned (c : BusCmd) (n : Txn) (e : BusEvent) : Quiet (s.conditioned c n e) :=
  ⟨ctrlMask_quiet q.ctrl, by simpa [State.conditioned] using q.stat⟩

theorem Quiet.sent (b : Byte) (n : Txn) (k : Bool) (ks : List Bool) : Quiet (s.sent b n k ks) :=
  ⟨q.ctrl, by simpa [State.sent, getLsbD_withBit] using q.stat⟩

theorem Quiet.received (a d : Bool) (n : Txn) (x : Byte) (xs : List Byte) : Quiet (s.received a d n x xs) :=
  ⟨ackCtrl_quiet (!a), by simpa [State.received] using q.stat⟩

/-- START, RSTART and STOP: the check, then the trigger. -/
theorem completes_condition {c : BusCmd} {n : Txn} {k : Trigger} {e : BusEvent} (cell : txnTable c s.txn = .ok n)
    (logged : ∀ t, periphEffect k.op t = logEvent e (clearTrigger k t)) :
    Completes [.ckBus c, .hold, .set k] s (s.conditioned c n e) := by
  have checked : Quiet (ckClears c { s with txn := n }) := ⟨by simpa using q.ctrl, by simpa using q.stat⟩
  refine .cons (doUop_ckBus_ok q.en rfl cell) (.cons checked.hold (.step (doUop_set k _) ?_ (.nil _)))
  simp [Uop.answered, Uop.starts, logged, logEvent, clearTrigger, trigger_set_then_cleared q.ctrl, State.conditioned]

/-- SEND: the check, then the byte, whose transmission draws the slave's acknowledge. -/
theorem completes_send {b : Byte} {n : Txn} {k : Bool} {ks : List Bool} (cell : txnTable (.send b) s.txn = .ok n)
    (hk : s.ackIn = k :: ks) : Completes (uopsOf (.send b)) s (s.sent b n k ks) := by
  have checked : Quiet { s with txn := n } := ⟨q.ctrl, q.stat⟩
  refine .cons (doUop_ckBus_ok q.en rfl cell) <| .cons checked.hold <|
    .step ((doUop_wdata b _).trans (if_pos q.en)) ?_ (.nil _)
  simp [Uop.answered, Uop.starts, periphEffect, completeTx, logEvent, drawnBit, afterDrawBit, hk,
    busy_set_then_answered q.stat, State.sent]

/-- RECV: the check, the byte the slave answers, then its acknowledge. -/
theorem completes_recv {a d : Bool} {n : Txn} {x : Byte} {xs : List Byte} (cell : txnTable (.recv a) s.txn = .ok n)
    (hx : s.rxIn = x :: xs) : Completes (uopsOf (.recv a d)) s (s.received a d n x xs) := by
  have checked : Quiet { s with txn := n } := ⟨q.ctrl, q.stat⟩
  let s₁ : State := { s with
    txn := n, pData := x, rxIn := xs, pCtrl := s.pCtrl &&& ctrlMask, busLog := s.busLog ++ [.rx x] }
  have quiet₁ : Quiet s₁ := ⟨ctrlMask_quiet q.ctrl, q.stat⟩
  have answered : (Uop.set .rcen).answered { s with
      txn := n, pCtrl := withBit (s.pCtrl &&& ctrlMask) Trigger.rcen.bit true &&& ctrlMask } = s₁ := by
    simp [s₁, Uop.answered, Uop.starts, Trigger.op, periphEffect, completeRx, logEvent, clearTrigger, drawnByte,
      afterDrawByte, hx, trigger_set_then_cleared q.ctrl]
  let s₂ : State := { writeByteReg d x s₁ with pCtrl := ackCtrl (!a) }
  have written : doUop (.wackdt (ackValue a)) (writeByteReg d x s₁) = .done s₂ := by
    rw [doUop_wackdt, writeByteReg_pCtrl, ackdt_written q.ctrl]
    rfl
  have acked : (Uop.set .acken).answered { s₂ with
      pCtrl := withBit (s₂.pCtrl &&& ctrlMask) Trigger.acken.bit true &&& ctrlMask } = s.received a d n x xs := by
    rw [ack_answered (v := !a) rfl]
    cases d <;> simp [s₁, s₂, writeByteReg, State.received]
  exact .cons (doUop_ckBus_ok q.en rfl cell) <| .cons checked.hold <| .step (doUop_set .rcen _) answered <|
    .cons quiet₁.hold <| .cons (doUop_rdata d _) <| .cons written <| .step (doUop_set .acken s₂) acked <| .nil _

end

/-! ## The measurement (R194) -/

/-- What the slave answers in a measurement: two bytes, three acknowledge bits, and the answers left after it. -/
structure SlaveAnswers where
  x : Byte
  y : Byte
  k₁ : Bool
  k₂ : Bool
  k₃ : Bool
  bytes : List Byte
  acks : List Bool

/-- The slave will give these answers (R231). -/
structure SlaveAnswers.ToCome (a : SlaveAnswers) (s : State) : Prop where
  rx : s.rxIn = a.x :: a.y :: a.bytes
  ack : s.ackIn = a.k₁ :: a.k₂ :: a.k₃ :: a.acks

/-- The bus events of a measurement (R196). -/
def measEvents (c : Config) (r : Reading) (a : SlaveAnswers) : List BusEvent :=
  [.start, .tx (addrW c) a.k₁, .tx (cmdByte c r) a.k₂, .rstart, .tx (addrR c) a.k₃, .rx a.x, .ackout false, .rx a.y,
    .ackout true, .stop]

/-- The state after the transaction of a measurement, PH 0 to 7 of its list (R194). -/
def State.transacted (r : Reading) (a : SlaveAnswers) (s : State) : State :=
  { s with
    rxIn := a.bytes, ackIn := a.acks, pCtrl := 0xA0, pStat := withBit s.pStat 1 a.k₃, pData := a.y
    b0 := a.x, b1 := a.y, vB0 := true, vB1 := true, txn := .idle, busLog := s.busLog ++ measEvents s.cfg r a }

/-- The state after a measurement: the transaction, the delay, the raw value and its conversion. -/
def State.measured (r : Reading) (a : SlaveAnswers) (s : State) : State :=
  writeDecoded r (writeRaw r (raw14 a.x a.y) { s.transacted r a with elapsedMs := s.elapsedMs + 200 })

/-- The direction bit of an address byte (R137). -/
theorem addressByte_direction (n : BitVec 7) (isRead : Bool) : (addressByte n isRead).getLsbD 0 = isRead := by
  simp only [addressByte, BitVec.getLsbD_append]
  cases isRead <;> rfl

section
variable {s : State} (q : Quiet s) (ht : s.txn = .idle) (r : Reading) {a : SlaveAnswers} (ha : a.ToCome s)
include q ht ha

/-- PH 0 to 7 of a measurement's list, each primitive from the state the one before it leaves. -/
theorem completes_transaction :
    Completes (((measList s.cfg r).take 8).flatMap uopsOf) s (s.transacted r a) := by
  let s₁ := s.conditioned .start .addr .start
  let s₂ := s₁.sent (addrW s.cfg) .write a.k₁ (a.k₂ :: a.k₃ :: a.acks)
  let s₃ := s₂.sent (cmdByte s.cfg r) .write a.k₂ (a.k₃ :: a.acks)
  let s₄ := s₃.conditioned .rstart .addr .rstart
  let s₅ := s₄.sent (addrR s.cfg) .read a.k₃ a.acks
  let s₆ := s₅.received true false .readMore a.x (a.y :: a.bytes)
  let s₇ := s₆.received false true .readDone a.y a.bytes
  let s₈ := s₇.conditioned .stop .idle .stop
  have q₁ : Quiet s₁ := q.conditioned ..
  have q₂ : Quiet s₂ := q₁.sent ..
  have q₃ : Quiet s₃ := q₂.sent ..
  have q₄ : Quiet s₄ := q₃.conditioned ..
  have q₅ : Quiet s₅ := q₄.sent ..
  have q₆ : Quiet s₆ := q₅.received ..
  have q₇ : Quiet s₇ := q₆.received ..
  have opened : Completes (uopsOf .start) s s₁ := completes_condition q (k := .sen) (ht ▸ rfl) fun _ => rfl
  have addressed : Completes (uopsOf (.send (addrW s.cfg))) s₁ s₂ :=
    completes_send q₁ (txnTable_send_addr (addressByte_direction ..)) ha.ack
  have commanded : Completes (uopsOf (.send (cmdByte s.cfg r))) s₂ s₃ := completes_send q₂ rfl rfl
  have reopened : Completes (uopsOf .rstart) s₃ s₄ := completes_condition q₃ (k := .rsen) rfl fun _ => rfl
  have turned : Completes (uopsOf (.send (addrR s.cfg))) s₄ s₅ :=
    completes_send q₄ (txnTable_send_addr (addressByte_direction ..)) rfl
  have first : Completes (uopsOf (.recv true false)) s₅ s₆ := completes_recv q₅ rfl ha.rx
  have second : Completes (uopsOf (.recv false true)) s₆ s₇ := completes_recv q₆ rfl rfl
  have closed : Completes (uopsOf .stop) s₇ s₈ := completes_condition q₇ (k := .pen) rfl fun _ => rfl
  have last : s₈ = s.transacted r a := by
    simp [s₈, s₇, s₆, s₅, s₄, s₃, s₂, s₁, State.conditioned, State.sent, State.received, State.transacted, ckClears,
      writeByteReg, ackCtrl, ctrlMask, measEvents, withBit_withBit]
  exact last ▸ opened.append (addressed.append (commanded.append (reopened.append (turned.append
    (first.append (second.append closed))))))

/-- A measurement's whole list: the transaction, then DELAY, ASM and DEC. -/
theorem completes_meas : Completes ((measList s.cfg r).flatMap uopsOf) s (s.measured r a) := by
  have decoder : ((measList s.cfg r).drop 8).flatMap uopsOf = [.dly measDelayMs, .asm r, .dec r] := by cases r <;> rfl
  let t : State := { s.transacted r a with elapsedMs := s.elapsedMs + 200 }
  let raw := writeRaw r (raw14 a.x a.y) t
  have delayed : doUop (.dly measDelayMs) (s.transacted r a) = .done t := rfl
  have assembled : doUop (.asm r) t = .done raw := (doUop_asm r t).trans (if_pos rfl)
  have converted : doUop (.dec r) raw = .done (s.measured r a) :=
    (doUop_dec r raw).trans (if_pos (by cases r <;> rfl))
  rw [← List.take_append_drop 8 (measList s.cfg r), List.flatMap_append, decoder]
  exact (completes_transaction q ht r ha).append <| .cons delayed <| .cons assembled <| .cons converted <| .nil _

end

/-- A measurement is 35 μops and ten operations (R194). -/
theorem fairSteps_meas (c : Config) (r : Reading) : fairSteps ((measList c r).flatMap uopsOf) = 45 := by
  cases r <;> simp [fairSteps, measList, uopsOf, Uop.fairSteps, Uop.starts, asmInstr, decInstr]

/-- The raw value of two bytes (R160). -/
theorem raw14_toNat (x y : Byte) : (raw14 x y).toNat = 64 * x.toNat + y.toNat / 4 := by
  rw [raw14_eq_ofNat, BitVec.toNat_ofNat]; omega

theorem Quiet.measured {s : State} (q : Quiet s) (r : Reading) (a : SlaveAnswers) : Quiet (s.measured r a) :=
  ⟨by simp [State.measured, State.transacted],
    by simpa [State.measured, State.transacted, getLsbD_withBit] using q.stat⟩

/-- CYCLE's whole list: two measurements, then their strings (R193, R194). -/
theorem completes_cycle {s : State} (q : Quiet s) (ht : s.txn = .idle) {a b : SlaveAnswers} (ha : a.ToCome s)
    (hb : b.ToCome (s.measured .rh a)) :
    let t := (s.measured .rh a).measured .t b
    Completes ((cycleList s.cfg).flatMap uopsOf) s (emit (rhStr t.rh.toInt ++ tStr t.tc.toInt) t) := by
  intro t
  have strings : Completes (List.flatMap uopsOf [.fmtRh, .fmtT]) t (emit (rhStr t.rh.toInt ++ tStr t.tc.toInt) t) := by
    have shown : emit (tStr t.tc.toInt) (emit (rhStr t.rh.toInt) t) = emit (rhStr t.rh.toInt ++ tStr t.tc.toInt) t := by
      simp [emit]
    exact .cons ((doUop_fmt .rh t).trans (if_pos rfl)) <|
      .step ((doUop_fmt .t _).trans (if_pos rfl)) shown <| .nil _
  rw [cycleList, List.flatMap_append, List.flatMap_append]
  exact ((completes_meas q ht .rh ha).append (completes_meas (q.measured .rh a) rfl .t hb)).append strings

/-- A CYCLE is two measurements and two μops (R194). -/
theorem fairSteps_cycle (c : Config) : fairSteps ((cycleList c).flatMap uopsOf) = 92 := by
  rw [cycleList, List.flatMap_append, List.flatMap_append, fairSteps_append, fairSteps_append, fairSteps_meas,
    fairSteps_meas]
  rfl

end Sys2Proof.Machine
end

section
/-! SUPPORT. The obligations about whole fault-free runs of MEAS and CYCLE under a fair peripheral (42_sequencer.md R191
to R194, R196). -/

namespace Sys2Proof.Machine

theorem Quiet.issued {s : State} (q : Quiet s) (i : Instr) (ts : List Turn) :
    Quiet (clearAtIssue i { s with turns := ts }) := ⟨by simpa using q.ctrl, by simpa using q.stat⟩

/-- A command issued to an enabled idle block runs to its end: the step of the issue, and those of its μops. -/
theorem run_issued {s v : State} {w : Word} {i : Instr} {k : Nat} (hts : s.turns = [.write 0 w]) (hb : s.busy = false)
    (hh : s.halt = false) (hfair : s.cfg.periphFair = true) (q : Quiet s) (hw : decode w = .ok i)
    (hk : fairSteps ((primsOf s.cfg i).flatMap uopsOf) = k)
    (h : Completes ((primsOf s.cfg i).flatMap uopsOf) (clearAtIssue i { s with turns := [] }) v) :
    Sys2Proof.core.run (k + 1) s = .next v.completed := by
  have rest : FairlyAtRest (clearAtIssue i { s with turns := [] }) := by
    obtain ⟨en, idle⟩ := (quiet_iff _).1 (q.issued i [])
    exact ⟨by simp, by simpa using hh, by simpa using hfair, en, idle⟩
  have owes : Owes (clearAtIssue i { s with turns := [] }).cfg i 0 0 ((primsOf s.cfg i).flatMap uopsOf) := by
    simpa using owes_all s.cfg i
  have issued : clearAtIssue i { s with turns := [], cur := w, ph := 0, mph := 0, busy := true } =
      (clearAtIssue i { s with turns := [] }).withControl 0 0 true w := by cases i <;> rfl
  rw [run_succ_next (step_issue hts hb hh hw), issued, ← hk]
  exact run_of_completes hw h owes rest

/-- The command of a single measurement (R191, R192). -/
def measInstr : Reading → Instr
  | .rh => .measRh
  | .t => .measT

/-- Settles O36: the issue, then the 45 steps of the list, whose effect is `State.measured`. -/
theorem measurementRunsToItsResult : Obligations.MeasurementRunsToItsResult := by
  intro s r x y k₁ k₂ k₃ xs ks hts hb hh he ht hi hfair hx hk raw u
  have q : Quiet s := (quiet_iff s).2 ⟨he, hi⟩
  let a : SlaveAnswers := ⟨x, y, k₁, k₂, k₃, xs, ks⟩
  have hraw : (BitVec.ofNat 14 raw).toNat = raw := raw14_eq_ofNat x y ▸ raw14_toNat x y
  have issued : s.turns = [.write 0 (encode (measInstr r))] := by rw [hts]; cases r <;> rfl
  have list : primsOf s.cfg (measInstr r) = measList s.cfg r := by cases r <;> rfl
  let s₀ := clearAtIssue (measInstr r) { s with turns := [] }
  have coming : a.ToCome s₀ := ⟨by simpa [s₀] using hx, by simpa [s₀] using hk⟩
  have meas : Completes ((measList s.cfg r).flatMap uopsOf) s₀ (s₀.measured r a) := by
    simpa [s₀] using completes_meas (q.issued (measInstr r) []) (by simpa using ht) r coming
  refine (run_issued issued hb hh hfair q (decode_encode _) (list ▸ fairSteps_meas s.cfg r) (list ▸ meas)).trans ?_
  cases r <;>
    simp [s₀, u, a, raw, hraw, hb, ht, State.measured, State.transacted, State.completed, measInstr, clearAtIssue,
      writeDecoded, writeRaw, raw14_eq_ofNat, measEvents, addrW, addrR, cmdByte, addressByte]

/-- Settles O37: the issue, then two measurements and the two strings. -/
theorem cycleShowsBothReadings : Obligations.CycleShowsBothReadings := by
  intro s x y z w k₁ k₂ k₃ k₄ k₅ k₆ xs ks hts hb hh he ht hi hfair hx hk
  have q : Quiet s := (quiet_iff s).2 ⟨he, hi⟩
  let a : SlaveAnswers := ⟨x, y, k₁, k₂, k₃, z :: w :: xs, k₄ :: k₅ :: k₆ :: ks⟩
  let b : SlaveAnswers := ⟨z, w, k₄, k₅, k₆, xs, ks⟩
  have shown := completes_cycle (s := clearAtIssue .cycle { s with turns := [] }) (a := a) (b := b)
    (q.issued .cycle []) ht ⟨hx, hk⟩ ⟨rfl, rfl⟩
  have run := run_issued hts hb hh hfair q (decode_encode .cycle) (fairSteps_cycle s.cfg) shown
  have hrh : (BitVec.ofInt 16 (rhOf (raw14 x y).toNat)).toInt = rhOf (64 * x.toNat + y.toNat / 4) := by
    obtain ⟨lo, hi⟩ := rhOf_range (raw14 x y).isLt
    rw [toInt_ofInt_word (by omega) (by omega), raw14_toNat]
  have htc : (BitVec.ofInt 16 (tcOf (raw14 z w).toNat)).toInt = tcOf (64 * z.toNat + w.toNat / 4) := by
    obtain ⟨lo, hi⟩ := tcOf_range (raw14 z w).isLt
    rw [toInt_ofInt_word (by omega) (by omega), raw14_toNat]
  refine ⟨_, run, rfl, hh, rfl, hrh, htc, ?_, rfl, rfl⟩
  rw [← hrh, ← htc, List.append_assoc]
  rfl

end Sys2Proof.Machine
end

section
/-! SUPPORT. The obligations about the fault record (60_exceptions.md R212, R213, R216), the write that waits (R236) and
the peripheral's completion steps (R230): what a halted block's step leaves alone, the waiting write as the unnamed step,
and each completion step as one equation. -/

namespace Sys2Proof.Machine

/-! ## A host write that waits (R236) -/

/-- While BUSY = 1 a host write of CMD waits, and the step is the unnamed one (log 2). -/
theorem step_waitingWrite {s : State} {w : Word} {ts : List Turn} (hts : s.turns = .write 0 w :: ts)
    (hb : s.busy = true) : step s = unnamedStep s := by
  simp [step, hts, hostWaits, hb]

/-- The step while a write waits is the one with no turns to come, the turns put back. -/
theorem step_waitingWrite_withTurns {s : State} {w : Word} {ts : List Turn} (hts : s.turns = .write 0 w :: ts)
    (hb : s.busy = true) : step s = outcomeWithTurns (.write 0 w :: ts) (step { s with turns := [] }) := by
  calc step s = unnamedStep { { s with turns := [] } with turns := .write 0 w :: ts } := by
        rw [step_waitingWrite hts hb, ← hts]
    _ = outcomeWithTurns (.write 0 w :: ts) (unnamedStep { s with turns := [] }) := unnamedStep_withTurns _ _

theorem driverTurn_ne_refused (s : State) (r : Refusal) : driverTurn s ≠ .refused r := by
  unfold driverTurn
  split_ifs
  · split
    · exact exec_ne_refused _ s r
    · simp
  · simp

theorem unnamedStep_ne_refused (s : State) (r : Refusal) : unnamedStep s ≠ .refused r := by
  unfold unnamedStep
  split
  · split_ifs
    · simp
    · exact driverTurn_ne_refused s r
  · exact driverTurn_ne_refused s r

/-- Settles O8: the unnamed step neither reads nor writes the turns to come, and is never refused. -/
theorem commandWriteWaitsWhileBusy : Obligations.CommandWriteWaitsWhileBusy := by
  intro s w ts hts hb
  have waits := step_waitingWrite hts hb
  have putBack := step_waitingWrite_withTurns hts hb
  refine ⟨waits, fun u h => ?_, fun f h => ?_, waits ▸ unnamedStep_ne_refused s⟩
  · rw [putBack, h]; rfl
  · rw [putBack, h]; rfl

/-! ## A halted block (R213, R216) -/

/-- While HALT = 1 an issued word is dropped (R213). -/
theorem issue_halted {s : State} (h : s.halt = true) (w : Word) : issue w s = s := by simp [issue, h]

/-- The peripheral's turn leaves the fault record alone (R38). -/
theorem periphTurn_keeps_fault (op : PeriphOp) (s : State) :
    (periphTurn op s).halt = s.halt ∧ (periphTurn op s).fault = s.fault ∧ (periphTurn op s).fcmd = s.fcmd := by
  unfold periphTurn
  split_ifs
  · obtain ⟨-, -, -, -, hhalt, hfault, hfcmd, -⟩ := periphEffect_keeps_control op s
    exact ⟨hhalt, hfault, hfcmd⟩
  · exact ⟨rfl, rfl, rfl⟩

/-- Settles O10: no agent but a reset writes the record of a halted block, and a reset clears it. -/
theorem onlyResetClearsAFault : Obligations.OnlyResetClearsAFault := by
  intro s hh
  refine ⟨by simp [State.final, hh], fun t hreset h => ?kept, fun hreset => ?cleared⟩
  case kept =>
    obtain ⟨u, hu, h⟩ := step_cases h
    obtain ⟨huh, hrecord⟩ : u.halt = true ∧ u.fault = s.fault ∧ u.fcmd = s.fcmd := by
      rcases hu with rfl | ⟨_, _, -, rfl⟩ <;> exact ⟨hh, rfl, rfl⟩
    rcases h with h | ⟨op, rfl⟩ | ⟨off, rfl⟩ | ⟨w, -, rfl⟩ | rfl | ⟨-, hr⟩
    · obtain rfl : u = t := by simpa [driverTurn_halted huh] using h
      exact ⟨huh, hrecord⟩
    · obtain ⟨hhalt, hfault, hfcmd⟩ := periphTurn_keeps_fault op u
      rw [hhalt, hfault, hfcmd]
      exact ⟨huh, hrecord⟩
    · obtain ⟨_, _, h⟩ := hostRead_eq off u
      rw [h]
      exact ⟨huh, hrecord⟩
    · rw [issue_halted huh]
      exact ⟨huh, hrecord⟩
    · exact ⟨huh, hrecord⟩
    · exact absurd hr hreset
  case cleared =>
    obtain ⟨ts, hts⟩ := List.head?_eq_some_iff.1 hreset
    exact ⟨_, step_takeTurn hts rfl, rfl, rfl, rfl⟩

/-- Settles O47: a μop that completes or holds leaves HALT as it is, and one that raises a fault writes the record alone. -/
theorem faultsArePrecise : Obligations.FaultsArePrecise := by
  intro i s t hh h ht
  rw [exec_eq_driverStep] at h
  obtain ⟨p, u, -, -, ⟨s', hd, rfl⟩ | ⟨-, -, rfl⟩ | ⟨c, hr, rfl⟩⟩ := driverStep_next h
  · obtain ⟨-, -, -, -, hhalt, -⟩ := doUop_keeps_control hd
    simp [hhalt, hh] at ht
  · simp [hh] at ht
  · obtain ⟨hnone, hillegal⟩ := doUop_raises_code hr
    exact ⟨c, hnone, hillegal, rfl⟩

/-- Where no turn is named, a halted block's step is a completion step, or none (R213). -/
theorem unnamedStep_halted {s : State} (hh : s.halt = true) :
    unnamedStep s = .next s ∨ ∃ op, periphEnabled op s = true ∧ unnamedStep s = .next (periphEffect op s) := by
  unfold unnamedStep
  split
  · rename_i op hop
    have he := enabledOp_some hop
    split_ifs
    · exact .inr ⟨op, he, by simp [periphTurn, he]⟩
    · exact .inl (driverTurn_halted hh)
  · exact .inl (driverTurn_halted hh)

/-! ## The completion steps (R230) -/

/-- A named completion step is taken where its bit and EN are set, and else changes nothing (log 12). -/
theorem step_periph {s : State} {op : PeriphOp} {ts : List Turn} (hts : s.turns = .periph op :: ts) :
    step s = .next (if periphEnabled op s then periphEffect op { s with turns := ts } else { s with turns := ts }) :=
  step_takeTurn hts rfl

/-- Settles O9: the issue is dropped, the driver has no step, and a completion step leaves the driver's registers alone. -/
theorem haltedBlockDropsCommands : Obligations.HaltedBlockDropsCommands := by
  intro s hh
  refine ⟨fun w ts hts hb => ?dropped, fun ts hts => ?noUop, fun hts => ?unnamed, fun op ts hts he => ?completes⟩
  case dropped => rw [step_commandWrite hts hb, issue_halted (s := { s with turns := ts }) hh]
  case noUop => exact (step_takeTurn hts rfl).trans (driverTurn_halted (s := { s with turns := ts }) hh)
  case unnamed =>
    have not_named : step s = unnamedStep s := by
      rcases hts with hts | ⟨w, ts, hts, hb⟩
      · simp [step, hts]
      · exact step_waitingWrite hts hb
    rw [not_named]
    exact unnamedStep_halted hh
  case completes =>
    obtain ⟨-, -, -, hcur, hhalt, hfault, hfcmd, htxn, -⟩ := periphEffect_keeps_control op s
    refine ⟨{ periphEffect op s with turns := ts }, ?_, periphEffect_busLog op s, htxn, hhalt.trans hh, hfault, hfcmd, hcur⟩
    rw [step_periph hts, if_pos he, periphEffect_withTurns]

/-- A completion step with EN = 1 is enabled by its bit. -/
theorem step_periph_of_en {s : State} {op : PeriphOp} {ts : List Turn} (hts : s.turns = .periph op :: ts)
    (he : s.en = true) :
    step s = .next (if opBit op s then periphEffect op { s with turns := ts } else { s with turns := ts }) := by
  rw [step_periph hts, periphEnabled_eq, he, Bool.true_and]

/-- P_RX takes the byte the environment names (R231). -/
theorem periphEffect_pRx_named {s : State} {x : Byte} {xs : List Byte} (h : s.rxIn = x :: xs) :
    periphEffect .pRx s =
      { s with pData := x, pCtrl := s.pCtrl &&& 0xF7, rxIn := xs, busLog := s.busLog ++ [.rx x] } := by
  simp only [periphEffect, completeRx, drawnByte, afterDrawByte, h]; rfl

/-- Where none is named, P_RX takes a free one (log 6). -/
theorem periphEffect_pRx_free {s : State} (h : s.rxIn = []) :
    periphEffect .pRx s =
      { s with
        pData := Config.freeByte s.draws, pCtrl := s.pCtrl &&& 0xF7, draws := s.draws + 1
        busLog := s.busLog ++ [.rx (Config.freeByte s.draws)] } := by
  simp only [periphEffect, completeRx, drawnByte, afterDrawByte, h]; rfl

/-- ACKSTAT written and BUSY cleared, as masks (R32). -/
theorem ackstat_written_busy_cleared (x : Byte) (k : Bool) :
    withBit (withBit x 1 k) 0 false = (x &&& 0xFC) ||| (if k then 0x02 else 0x00) := by
  revert x k; decide

/-- P_TX takes the acknowledge bit the environment names (R231). -/
theorem periphEffect_pTx_named {s : State} {k : Bool} {ks : List Bool} (h : s.ackIn = k :: ks) :
    periphEffect .pTx s =
      { s with
        pStat := (s.pStat &&& 0xFC) ||| (if k then 0x02 else 0x00), ackIn := ks
        busLog := s.busLog ++ [.tx s.pData k] } := by
  simp only [periphEffect, completeTx, drawnBit, afterDrawBit, h, ackstat_written_busy_cleared]; rfl

/-- Where none is named, P_TX takes a free one (log 6). -/
theorem periphEffect_pTx_free {s : State} (h : s.ackIn = []) :
    periphEffect .pTx s =
      { s with
        pStat := (s.pStat &&& 0xFC) ||| (if Config.freeBit s.draws then 0x02 else 0x00), draws := s.draws + 1
        busLog := s.busLog ++ [.tx s.pData (Config.freeBit s.draws)] } := by
  simp only [periphEffect, completeTx, drawnBit, afterDrawBit, h, ackstat_written_busy_cleared]; rfl

/-- Settles O39: with EN = 0 no step is enabled; with EN = 1 each is by its bit, and its effect is its row of the table (the
masks of the four that draw nothing are `withBit` computed). -/
theorem peripheralCompletionsAreThoseOfTheTable : Obligations.PeripheralCompletionsAreThoseOfTheTable := by
  intro s op ts hts u
  refine ⟨fun he => ?disabled, fun he => ?enabled⟩
  case disabled => simp [step_periph hts, periphEnabled, he, u]
  case enabled =>
    have taken (hbit : opBit op s = true) : step s = .next (periphEffect op u) := by
      rw [step_periph_of_en hts he, if_pos hbit]
    have notTaken (hbit : opBit op s = false) : step s = .next u := by
      rw [step_periph_of_en hts he, if_neg (by simp [hbit])]
    refine ⟨?start, ?rstart, ?stop, ?ack, ?rxNone, ?rxNamed, ?rxFree, ?txNone, ?txNamed, ?txFree⟩
    case start | rstart | stop | ack => rintro rfl; exact step_periph_of_en hts he
    case rxNone | txNone => rintro rfl hbit; exact notTaken hbit
    case rxNamed =>
      rintro rfl hbit x xs hx
      rw [taken hbit, periphEffect_pRx_named (s := u) hx]
    case rxFree =>
      rintro rfl hbit hx
      exact ⟨_, by rw [taken hbit, periphEffect_pRx_free (s := u) hx]⟩
    case txNamed =>
      rintro rfl hbit k ks hk
      rw [taken hbit, periphEffect_pTx_named (s := u) hk]
    case txFree =>
      rintro rfl hbit hk
      exact ⟨_, by rw [taken hbit, periphEffect_pTx_free (s := u) hk]⟩

end Sys2Proof.Machine
end

section
/-! SUPPORT. The obligations about the block's reset and about what opens and closes a transaction (10_state.md R56,
40_bus_phases.md R131, R147, 70_reset_and_hazards.md R240, R242): which agent's step can move TXN, and by which cell of
the transaction table. -/

namespace Sys2Proof.Machine

/-- Settles O15: a named reset never waits, and its step is `blockReset`, whose free values are the result registers'. -/
theorem blockResetLeavesThePeripheral : Obligations.BlockResetLeavesThePeripheral := by
  intro s ts hts
  exact ⟨_, _, _, _, _, _, _, step_takeTurn hts rfl⟩

/-! ## The transaction table's way out of IDLE and back (R131) -/

/-- The table leaves IDLE in the row of START alone. -/
theorem txnTable_leaves_idle {c : BusCmd} {n : Txn} (h : txnTable c .idle = .ok n) (hn : n ≠ .idle) : c = .start := by
  cases c with
  | start => rfl
  | rstart | stop | send | recv => cases h
  | init => cases h; exact absurd rfl hn

/-- The table returns to IDLE in the row of STOP alone. -/
theorem txnTable_enters_idle {c : BusCmd} {n : Txn} (h : txnTable c n = .ok .idle) (hn : n ≠ .idle) : c = .stop := by
  cases c with
  | stop => rfl
  | start | rstart => cases n <;> cases h
  | init => exact absurd (by cases n <;> cases h; rfl) hn
  | send b => cases hb : directionIsRead b <;> cases n <;> simp [txnTable, hb] at h
  | recv a => cases a <;> cases n <;> cases h

/-- The CK of START stands in START alone, and that of STOP in STOP alone (R44). -/
theorem prim_of_ckBus {p : Instr} {m : Nat} {c : BusCmd} (h : (uopsOf p)[m]? = some (.ckBus c)) :
    (c = .start → p = .start) ∧ (c = .stop → p = .stop) := by
  obtain rfl : m = 0 := check_stands_first h rfl
  cases p <;> simp [uopsOf] at h <;> simp [← h]

/-! ## What moves TXN -/

/-- A μop that changes TXN is the CK of a bus primitive: INIT's check passes in IDLE only, and stays there (R131, R144). -/
theorem doUop_changes_txn {u : Uop} {s t : State} (h : doUop u s = .done t) (hne : t.txn ≠ s.txn) :
    ∃ c, u = .ckBus c ∧ txnTable c s.txn = .ok t.txn := by
  cases u with
  | ckBus c =>
    obtain ⟨-, n, htable, rfl⟩ : s.en = true ∧ ∃ n, txnTable c s.txn = .ok n ∧ t = ckClears c { s with txn := n } := by
      simpa using doUop_done h
    exact ⟨c, rfl, by simpa using htable⟩
  | ckInit =>
    obtain ⟨n, htable, rfl⟩ : ∃ n, txnTable .init s.txn = .ok n ∧ t = { s with txn := n } := by simpa using doUop_done h
    have stays : n = s.txn := by generalize s.txn = m at htable; cases m <;> cases htable; rfl
    exact absurd stays hne
  | hold | set k | wdata b | rdata d | wackdt v | wdiv v | wctrl v | dly n | asm r | dec r | fmt r =>
    exact absurd (doUop_keeps_txn h rfl) hne

/-- The running primitive's μop is the CK of `c`, and the table's cell for it takes TXN to `n` (R130, R131). -/
def State.ckMoves (s : State) (c : BusCmd) (n : Txn) : Prop :=
  ∃ p, s.curPrim = some p ∧ (uopsOf p)[s.mph.toNat]? = some (.ckBus c) ∧ txnTable c s.txn = .ok n

/-- A driver's turn that changes TXN runs a CK: a HOLD, a fault and the advance leave TXN alone (R45, R46, R212). -/
theorem driverTurn_changes_txn {s t : State} (h : driverTurn s = .next t) (hne : t.txn ≠ s.txn) :
    ∃ c, s.ckMoves c t.txn := by
  rcases driverTurn_cases h with ⟨-, rfl⟩ | ⟨-, -, -, rfl⟩ | ⟨i, hb, hh, hc, h⟩
  · exact absurd rfl hne
  · exact absurd rfl hne
  · obtain ⟨p, u, hp, hu, ⟨s', hd, rfl⟩ | ⟨-, -, rfl⟩ | ⟨_, -, rfl⟩⟩ := driverStep_next h
    · have at_u : AtUop s i p u := ⟨hb, hh, hc, hp, hu⟩
      rw [advance_txn] at hne ⊢
      obtain ⟨c, rfl, htable⟩ := doUop_changes_txn hd hne
      exact ⟨c, p, at_u.curPrim_eq, hu, htable⟩
    · exact absurd rfl hne
    · exact absurd rfl hne

/-- The peripheral's turn, enabled or not, leaves TXN alone (R38, R233). -/
theorem periphTurn_txn (op : PeriphOp) (s : State) : (periphTurn op s).txn = s.txn := by
  unfold periphTurn
  split_ifs
  · obtain ⟨-, -, -, -, -, -, -, htxn, -⟩ := periphEffect_keeps_control op s
    exact htxn
  · rfl

/-- An issue leaves TXN alone, whether it latches, faults or is dropped (R236). -/
theorem issue_txn (w : Word) (s : State) : (issue w s).txn = s.txn := by
  rcases issue_cases w s with ⟨-, h⟩ | ⟨-, -, h⟩ | ⟨i, -, -, h⟩ <;> simp [h]

theorem hostRead_txn (off : BitVec 4) (s : State) : (hostRead off s).txn = s.txn := by
  obtain ⟨_, _, h⟩ := hostRead_eq off s
  rw [h]

/-- A step of any agent that changes TXN is the driver's, at a CK, or a reset, which closes the transaction (R56, R131). -/
theorem step_changes_txn {s t : State} (h : step s = .next t) (hne : t.txn ≠ s.txn) :
    (∃ c, s.ckMoves c t.txn) ∨ (t.txn = .idle ∧ s.turns.head? = some .reset) := by
  obtain ⟨u, hu, h⟩ := step_cases h
  obtain ⟨htxn, hck⟩ : u.txn = s.txn ∧ ∀ c n, u.ckMoves c n → s.ckMoves c n := by
    rcases hu with rfl | ⟨_, _, -, rfl⟩ <;> exact ⟨rfl, fun _ _ h => h⟩
  rw [← htxn] at hne
  rcases h with h | ⟨op, rfl⟩ | ⟨off, rfl⟩ | ⟨w, -, rfl⟩ | rfl | ⟨rfl, hreset⟩
  · obtain ⟨c, h⟩ := driverTurn_changes_txn h hne
    exact .inl ⟨c, hck c _ h⟩
  · exact absurd (periphTurn_txn op u) hne
  · exact absurd (hostRead_txn off u) hne
  · exact absurd (issue_txn w u) hne
  · exact absurd rfl hne
  · exact .inr ⟨rfl, hreset⟩

/-- Settles O50: TXN changes at a CK or by a reset, and the table leaves IDLE at START's CK and returns at STOP's. -/
theorem transactionsOpenByStartAndCloseByStop : Obligations.TransactionsOpenByStartAndCloseByStop := by
  intro s t h
  refine ⟨fun hs ht => ?opens, fun hs ht => ?closes⟩
  case opens =>
    rcases step_changes_txn h (hs ▸ ht) with ⟨c, p, hp, hu, htable⟩ | ⟨hidle, -⟩
    · have is_start := (prim_of_ckBus hu).1 (txnTable_leaves_idle (hs ▸ htable) ht)
      rw [hp, is_start]
    · exact absurd hidle ht
  case closes =>
    rcases step_changes_txn h (fun he => hs (he ▸ ht)) with ⟨c, p, hp, hu, htable⟩ | ⟨-, hreset⟩
    · have is_stop := (prim_of_ckBus hu).2 (txnTable_enters_idle (ht ▸ htable) hs)
      exact .inl (by rw [hp, is_stop])
    · exact .inr hreset

end Sys2Proof.Machine
end

section
/-! SUPPORT. The obligations about the order of the two conversions (41_decoder.md R166, R170) and about the decoder
commands' operands (R176). -/

namespace Sys2Proof.Machine

/-! ## The order of the conversions (R166, R170) -/

/-- Truncation toward zero keeps the order, also across zero, where it changes from rounding up to rounding down (R8). -/
theorem truncDiv_mono {m n : Int} (h : m ≤ n) : truncDiv m 16384 ≤ truncDiv n 16384 := by
  unfold truncDiv
  split_ifs <;> omega

/-- The humidity is negative up to the raw value 655: from 656 on the exact value is above -1, which truncates to 0 or
more (R166). -/
theorem rhOf_neg_iff (r : Nat) : rhOf r < 0 ↔ r ≤ 655 := by
  unfold rhOf truncDiv
  split_ifs <;> omega

/-- The humidity is above 100 from the raw value 14025 on (R166). -/
theorem rhOf_gt_100_iff (r : Nat) : 100 < rhOf r ↔ 14025 ≤ r := by
  unfold rhOf truncDiv
  split_ifs <;> omega

/-- Settles O29: truncation keeps the order of the numerators, and the bounds are those of the 14-bit range. -/
theorem humidityRangeAndOrder : Obligations.HumidityRangeAndOrder := by
  intro r hr
  obtain ⟨lo, hi⟩ := rhOf_range (r := r) (by omega)
  exact ⟨lo, hi, truncDiv_mono (by omega), rhOf_neg_iff r, rhOf_gt_100_iff r⟩

/-- A numerator that grows by more than the divisor rounds to a larger integer (R8). -/
theorem roundHalfAway_lt_of_gap {m n : Int} (h : m + 16384 < n) : roundHalfAway m 16384 < roundHalfAway n 16384 := by
  obtain ⟨hm, -⟩ := roundHalfAway_nearest m
  obtain ⟨hn, -⟩ := roundHalfAway_nearest n
  omega

/-- Settles O30: 17572 is more than the divisor, so each raw value rounds higher than the one before, and rounding is
to the nearest. -/
theorem temperatureRangeAndOrder : Obligations.TemperatureRangeAndOrder := by
  intro r hr
  obtain ⟨lo, hi⟩ := tcOf_range (r := r) (by omega)
  obtain ⟨near, -⟩ := roundHalfAway_nearest (17572 * r - 76759040)
  exact ⟨lo, hi, roundHalfAway_lt_of_gap (by omega), near⟩

/-! ## The decoder's operands (R176) -/

/-- The two states agree on the registers the decoder reads and writes, on their valid bits, and on HALT. -/
structure SameReadings (s₁ s₂ : State) : Prop where
  b0 : s₁.b0 = s₂.b0
  b1 : s₁.b1 = s₂.b1
  rawRh : s₁.rawRh = s₂.rawRh
  rawT : s₁.rawT = s₂.rawT
  rh : s₁.rh = s₂.rh
  tc : s₁.tc = s₂.tc
  vB0 : s₁.vB0 = s₂.vB0
  vB1 : s₁.vB1 = s₂.vB1
  vRawRh : s₁.vRawRh = s₂.vRawRh
  vRawT : s₁.vRawT = s₂.vRawT
  vRh : s₁.vRh = s₂.vRh
  vTc : s₁.vTc = s₂.vTc
  halt : s₁.halt = s₂.halt

/-- From `s₁` to `t₁` and from `s₂` to `t₂` the same results were written, the same bytes emitted, and a fault was taken
in both or in neither. -/
structure SameResults (s₁ t₁ s₂ t₂ : State) : Prop where
  rawRh : t₂.rawRh = t₁.rawRh
  rawT : t₂.rawT = t₁.rawT
  rh : t₂.rh = t₁.rh
  tc : t₂.tc = t₁.tc
  out : ∃ e, t₁.out = s₁.out ++ e ∧ t₂.out = s₂.out ++ e
  halt : t₂.halt = t₁.halt

/-- The μop `u` checks the same in both states, and where it passes, what it computes is the same. -/
def SameCheck (u : Uop) (s₁ s₂ : State) : Prop :=
  ∃ (valid : Bool) (d₁ d₂ : State), doUop u s₁ = (if valid then .done d₁ else .raises .unwritten) ∧
    doUop u s₂ = (if valid then .done d₂ else .raises .unwritten) ∧ SameResults s₁ d₁ s₂ d₂

namespace SameReadings

variable {s₁ s₂ t₁ : State} (same : SameReadings s₁ s₂)
include same

theorem bytes_valid : (s₁.vB0 && s₁.vB1) = (s₂.vB0 && s₂.vB1) := by rw [same.vB0, same.vB1]

theorem raw_valid (r : Reading) : rawValid r s₁ = rawValid r s₂ := by
  cases r
  · exact same.vRawRh
  · exact same.vRawT

theorem decoded_valid (r : Reading) : decodedValid r s₁ = decodedValid r s₂ := by
  cases r
  · exact same.vRh
  · exact same.vTc

theorem readingStr_eq (r : Reading) : readingStr r s₁ = readingStr r s₂ := by
  cases r
  · exact congrArg (fun w : Word => rhStr w.toInt) same.rh
  · exact congrArg (fun w : Word => tStr w.toInt) same.tc

/-- The assembly writes a function of B0 and B1 (R160). -/
theorem results_writeRaw (r : Reading) :
    SameResults s₁ (writeRaw r (raw14 s₁.b0 s₁.b1) s₁) s₂ (writeRaw r (raw14 s₂.b0 s₂.b1) s₂) := by
  refine ⟨?_, ?_, by simp [same.rh], by simp [same.tc], ⟨[], by simp⟩, by simp [same.halt]⟩ <;>
    cases r <;> simp [writeRaw, same.b0, same.b1, same.rawRh, same.rawT]

/-- The conversion writes a function of the raw register (R164, R168). -/
theorem results_writeDecoded (r : Reading) : SameResults s₁ (writeDecoded r s₁) s₂ (writeDecoded r s₂) := by
  refine ⟨by simp [same.rawRh], by simp [same.rawT], ?_, ?_, ⟨[], by simp⟩, by simp [same.halt]⟩ <;>
    cases r <;> simp [writeDecoded, same.rawRh, same.rawT, same.rh, same.tc]

/-- The string is a function of the decoded register (R171, R173). -/
theorem results_emit (r : Reading) :
    SameResults s₁ (emit (readingStr r s₁) s₁) s₂ (emit (readingStr r s₂) s₂) :=
  ⟨same.rawRh.symm, same.rawT.symm, same.rh.symm, same.tc.symm, ⟨readingStr r s₁, rfl, by rw [same.readingStr_eq]; rfl⟩,
    same.halt.symm⟩

/-- ASM in both states: one check, and the same results past it (R161, R162). -/
theorem check_asm (r : Reading) : SameCheck (.asm r) s₁ s₂ :=
  ⟨_, _, _, doUop_asm r s₁, by rw [doUop_asm, same.bytes_valid], same.results_writeRaw r⟩

/-- DEC in both states (R165, R169). -/
theorem check_dec (r : Reading) : SameCheck (.dec r) s₁ s₂ :=
  ⟨_, _, _, doUop_dec r s₁, by rw [doUop_dec, same.raw_valid], same.results_writeDecoded r⟩

/-- FMT in both states (R172, R174). -/
theorem check_fmt (r : Reading) : SameCheck (.fmt r) s₁ s₂ :=
  ⟨_, _, _, doUop_fmt r s₁, by rw [doUop_fmt, same.decoded_valid], same.results_emit r⟩

/-- A command at its last μop completes in both states with the same results, or is UNWRITTEN in both. -/
theorem exec_agrees {i : Instr} {u : Uop} (at₁ : AtPrimitive i s₁ 0 u) (at₂ : AtPrimitive i s₂ 0 u)
    (last : (uopsOf i)[1]? = none) (check : SameCheck u s₁ s₂) (h : exec i s₁ = .next t₁) :
    ∃ t₂, exec i s₂ = .next t₂ ∧ SameResults s₁ t₁ s₂ t₂ := by
  obtain ⟨valid, d₁, d₂, check₁, check₂, ⟨rawRh, rawT, rh, tc, out, halt⟩⟩ := check
  obtain ⟨done₁, faults₁⟩ := at₁.exec_checked last check₁
  obtain ⟨done₂, faults₂⟩ := at₂.exec_checked last check₂
  cases valid with
  | true =>
    obtain rfl := Host.Outcome.next.inj (h.symm.trans (done₁ rfl))
    exact ⟨_, done₂ rfl, rawRh, rawT, rh, tc, out, halt⟩
  | false =>
    obtain rfl := Host.Outcome.next.inj (h.symm.trans (faults₁ rfl))
    exact ⟨_, faults₂ rfl, same.rawRh.symm, same.rawT.symm, same.rh.symm, same.tc.symm,
      ⟨[], (List.append_nil _).symm, (List.append_nil _).symm⟩, rfl⟩

/-- Each decoder command, by the μop it is. -/
theorem exec_decoder {i : Instr} (hi : i ∈ [Instr.asmRh, .asmT, .decRh, .decT, .fmtRh, .fmtT])
    (hp₁ : s₁.ph = 0) (hm₁ : s₁.mph = 0) (hp₂ : s₂.ph = 0) (hm₂ : s₂.mph = 0) (h : exec i s₁ = .next t₁) :
    ∃ t₂, exec i s₂ = .next t₂ ∧ SameResults s₁ t₁ s₂ t₂ := by
  simp only [List.mem_cons, List.not_mem_nil, or_false] at hi
  rcases hi with rfl | rfl | rfl | rfl | rfl | rfl
  · exact same.exec_agrees ⟨rfl, hp₁, hm₁, rfl⟩ ⟨rfl, hp₂, hm₂, rfl⟩ rfl (same.check_asm .rh) h
  · exact same.exec_agrees ⟨rfl, hp₁, hm₁, rfl⟩ ⟨rfl, hp₂, hm₂, rfl⟩ rfl (same.check_asm .t) h
  · exact same.exec_agrees ⟨rfl, hp₁, hm₁, rfl⟩ ⟨rfl, hp₂, hm₂, rfl⟩ rfl (same.check_dec .rh) h
  · exact same.exec_agrees ⟨rfl, hp₁, hm₁, rfl⟩ ⟨rfl, hp₂, hm₂, rfl⟩ rfl (same.check_dec .t) h
  · exact same.exec_agrees ⟨rfl, hp₁, hm₁, rfl⟩ ⟨rfl, hp₂, hm₂, rfl⟩ rfl (same.check_fmt .rh) h
  · exact same.exec_agrees ⟨rfl, hp₁, hm₁, rfl⟩ ⟨rfl, hp₂, hm₂, rfl⟩ rfl (same.check_fmt .t) h

end SameReadings

/-- Settles O33: each decoder command's one μop checks and computes from the registers the two states share. -/
theorem decoderDependsOnItsOperandsOnly : Obligations.DecoderDependsOnItsOperandsOnly := by
  intro s₁ s₂ t₁ i hi hp₁ hm₁ hp₂ hm₂ b0 b1 rawRh rawT rh tc vB0 vB1 vRawRh vRawT vRh vTc halt h
  have same : SameReadings s₁ s₂ := ⟨b0, b1, rawRh, rawT, rh, tc, vB0, vB1, vRawRh, vRawT, vRh, vTc, halt⟩
  obtain ⟨t₂, h₂, rawRh, rawT, rh, tc, ⟨e, out₁, out₂⟩, halt⟩ := same.exec_decoder hi hp₁ hm₁ hp₂ hm₂ h
  exact ⟨t₂, e, h₂, rawRh, rawT, rh, tc, out₁, out₂, halt⟩

end Sys2Proof.Machine
end

section
/-! SUPPORT. The obligations about the pending operations over every agent (10_state.md R48) and about the end of every
command under a fair peripheral (60_exceptions.md R234): each step of the driver takes one of the μops owed, and each
completion step one of the operations pending. -/

namespace Sys2Proof.Machine

/-- Settles O42: every agent's step keeps `pendingOk`, whose first half is the count. -/
theorem atMostOneOperationPending : Obligations.AtMostOneOperationPending := by
  intro s t hs h
  have ht := pendingOk_stepKeeps.step hs h
  exact ⟨ht, ((pendingOk_iff t).1 ht).1⟩

/-! ## The block left to itself under a fair peripheral -/

/-- No other agent has a turn, the peripheral is fair, the driver is at its place, and an operation that is pending can
complete. -/
structure FairlyRunning (s : State) : Prop where
  turns : s.turns = []
  fair : s.cfg.periphFair = true
  position : s.positionOk = true
  pending : s.pendingOk = true
  power : s.en = true ∨ s.idleP = true

/-- A μop that starts an operation comes past a CK that checks EN (R130, R144). -/
theorem checksEnable_of_starts {p : Instr} {m : Nat} {u : Uop} {op : PeriphOp} (hu : (uopsOf p)[m]? = some u)
    (hs : u.starts = some op) : checksEnable p = true ∧ m ≠ 0 := by
  have starting : ∀ u ∈ uopsOf p, u.starts ≠ none → checksEnable p = true := by
    cases p <;> simp [uopsOf, Uop.starts, checksEnable]
  have checked := starting u (List.mem_of_getElem? hu) (by simp [hs])
  refine ⟨checked, ?_⟩
  rintro rfl
  obtain ⟨c, rfl⟩ := first_uop_of_checksEnable checked hu
  cases hs

namespace FairlyRunning

variable {s t : State} {i p : Instr} {u : Uop} (hs : FairlyRunning s)
include hs

theorem pendingCount_le : s.pendingCount ≤ 1 := ((pendingOk_iff s).1 hs.pending).1

/-- A busy block is at a μop of its command. -/
theorem atUop (hb : s.busy = true) : ∃ i p u, AtUop s i p u := by
  obtain ⟨i, p, u, h, -⟩ := (positionOk_iff s).1 hs.position hb
  exact ⟨i, p, u, h⟩

/-- Where the driver is about to start an operation, EN is 1. -/
theorem en_at_starts (h : AtUop s i p u) {op : PeriphOp} (hu : u.starts = some op) : s.en = true := by
  obtain ⟨j, q, v, hat, hen⟩ := (positionOk_iff s).1 hs.position h.busy
  obtain rfl : q = p := Option.some.inj (hat.curPrim_eq.symm.trans h.curPrim_eq)
  obtain ⟨checked, hm⟩ := checksEnable_of_starts h.uop hu
  refine (hen checked).resolve_left fun h0 => hm ?_
  rw [h0]
  rfl

/-- A completion step leaves the peripheral idle. -/
theorem periph {op : PeriphOp} (he : s.en = true) (hop : opBit op s = true) :
    FairlyRunning (periphEffect op s) ∧ (periphEffect op s).idleP = true := by
  obtain ⟨-, -, -, -, -, -, -, -, hcfg, hturns⟩ := periphEffect_keeps_control op s
  have enabled : periphEnabled op s = true := by simp [periphEnabled_eq, he, hop]
  have idle := idleP_periphEffect hs.pendingCount_le hop
  exact ⟨⟨hturns.trans hs.turns, hcfg ▸ hs.fair, positionOk_stepKeeps.periph hs.position enabled,
    pendingOk_stepKeeps.periph hs.pending enabled, .inr idle⟩, idle⟩

/-- A μop that completes leaves EN set, or the peripheral idle if it was and nothing was started. -/
theorem uop (h : AtUop s i p u) (hd : doUop u s = .done t) :
    FairlyRunning (advance (primsOf s.cfg i).length (uopsOf p).length t) := by
  obtain ⟨-, -, -, -, -, hcfg, -, -, -, hturns, -⟩ := doUop_keeps_control hd
  have power : t.en = true ∨ t.idleP = true := by
    have en_kept := en_doUop (List.mem_of_getElem? h.uop) hd
    cases hu : u.starts with
    | some op => exact .inl (en_kept (hs.en_at_starts h hu))
    | none => exact hs.power.imp en_kept (idleP_doUop hs.pending h hd hu).trans
  refine ⟨by simp [hturns, hs.turns], by simp [hcfg, hs.fair], positionOk_stepKeeps.uop hs.position h hd,
    pendingOk_stepKeeps.uop hs.pending h hd, ?_⟩
  rw [idleP_congr fun a => opBit_advance a _ _ t]
  simpa [State.en] using power

/-- The peripheral is idle, or one completion step makes it so and leaves the driver where it was (R234). -/
theorem idle_within_one : ∃ k t, k ≤ 1 ∧ Sys2Proof.core.run k s = .next t ∧ FairlyRunning t ∧ t.idleP = true ∧
    t.ph = s.ph ∧ t.mph = s.mph ∧ t.busy = s.busy ∧ t.cur = s.cur ∧ t.halt = s.halt ∧ t.cfg = s.cfg := by
  cases hi : s.idleP with
  | true => exact ⟨0, s, by omega, rfl, hs, hi, rfl, rfl, rfl, rfl, rfl, rfl⟩
  | false =>
    have he : s.en = true := hs.power.resolve_right (by simp [hi])
    obtain ⟨op, hop⟩ := enabledOp_of_not_idleP hi he
    have hbit : opBit op s = true := by simpa [periphEnabled_eq, he] using enabledOp_some hop
    obtain ⟨hph, hmph, hbusy, hcur, hhalt, -, -, -, hcfg, -⟩ := periphEffect_keeps_control op s
    obtain ⟨running, idle⟩ := hs.periph he hbit
    exact ⟨1, periphEffect op s, le_rfl,
      run_succ_next (step_of_pending hs.turns hs.fair he hbit hs.pendingCount_le) 0, running, idle, hph, hmph, hbusy,
      hcur, hhalt, hcfg⟩

end FairlyRunning

/-! ## The end of a command (R234) -/

/-- The run reaches BUSY = 0 within `n` steps. -/
def EndsWithin (n : Nat) (s : State) : Prop := ∃ k t, k ≤ n ∧ Sys2Proof.core.run k s = .next t ∧ t.busy = false

theorem EndsWithin.of_not_busy {s : State} (n : Nat) (hb : s.busy = false) : EndsWithin n s :=
  ⟨0, s, n.zero_le, rfl, hb⟩

theorem EndsWithin.of_run {s u : State} {j m n : Nat} (hj : j ≤ m) (hrun : Sys2Proof.core.run j s = .next u)
    (hu : EndsWithin n u) : EndsWithin (m + n) s := by
  obtain ⟨k, t, hk, ht, hb⟩ := hu
  exact ⟨j + k, t, by omega, (run_add j k hrun).trans ht, hb⟩

/-- A command owes at most the 72 μops of CYCLE (R194). -/
theorem Owes.length_le {c : Config} {i : Instr} {k : BitVec 5} {m : BitVec 3} {us : List Uop} (h : Owes c i k m us) :
    us.length ≤ 72 := by
  obtain ⟨p, hp, -, rfl⟩ := h
  obtain ⟨hk, rfl⟩ := List.getElem?_eq_some_iff.1 hp
  have suffix : ((uopsOf (primsOf c i)[k.toNat]).drop m.toNat).Sublist _ := List.drop_sublist ..
  calc _ ≤ (((primsOf c i).drop k.toNat).flatMap uopsOf).length := by
        rw [List.drop_eq_getElem_cons hk]
        exact (suffix.append_right _).length_le
    _ ≤ ((primsOf c i).flatMap uopsOf).length := ((List.drop_sublist ..).flatMap uopsOf).length_le
    _ ≤ 72 := by cases i <;> simp [primsOf, cycleList, measList, uopsOf, asmInstr, decInstr]

/-- From an idle peripheral a command ends within two steps for each μop it owes: the μop's own, and that of the
operation it starts; or it faults before (R212). -/
theorem FairlyRunning.ends {i : Instr} {us : List Uop} {s : State} (hs : FairlyRunning s) (hi : s.idleP = true)
    (hr : s.running = some i) (howes : Owes s.cfg i s.ph s.mph us) : EndsWithin (2 * us.length) s := by
  induction us generalizing s with
  | nil =>
    obtain ⟨p, -, hm, h⟩ := howes
    exact absurd h (by simp; omega)
  | cons u us ih =>
    obtain ⟨hb, hh, hc⟩ := running_eq_some.1 hr
    obtain ⟨p, hp, hu, hadv⟩ := howes.advance s.cur
    have at_u : AtUop s i p u := ⟨hb, hh, hc, hp, hu⟩
    have driver : step s = settle (primsOf s.cfg i).length (uopsOf p).length s (doUop u s) := by
      rw [step_of_idle hs.turns hi, driverTurn_at at_u]
    have two_each : 2 * (u :: us).length = 1 + (1 + 2 * us.length) := by simp; omega
    rw [two_each]
    cases hd : doUop u s with
    | done t =>
      rw [hd, settle_done] at driver
      refine .of_run le_rfl (run_succ_next driver 0) ?_
      obtain ⟨-, -, -, -, hhalt, hcfg, -⟩ := doUop_keeps_control hd
      have running := hs.uop at_u hd
      rw [withControl_of_doUop hd, hb] at running ⊢
      rcases hadv t with ⟨-, hn⟩ | ⟨k', m', howes', hn⟩
      · rw [hn]
        exact .of_not_busy _ rfl
      · rw [hn] at running ⊢
        obtain ⟨k, v, hk, hrun, hv, idle, hph, hmph, hbusy, hcur, hhalt', hcfg'⟩ := running.idle_within_one
        have at_v : v.running = some i :=
          running_eq_some.2 ⟨hbusy, hhalt'.trans (hhalt.trans hh), hcur ▸ hc⟩
        refine .of_run hk hrun (ih hv idle at_v ?_)
        rw [hcfg', hph, hmph]
        exact hcfg ▸ howes'
    | holds => simp [(doUop_holds hd).2] at hi
    | raises c =>
      rw [hd, settle_raises] at driver
      exact .of_run le_rfl (run_succ_next driver 0) (.of_not_busy _ rfl)
    | stops f =>
      obtain ⟨t, ht⟩ := driverTurn_progress hs.position
      rw [driverTurn_at at_u, hd] at ht
      cases ht

/-- Settles O45: the operation pending completes in one step, and then each μop owed takes at most two. -/
theorem everyCommandEndsUnderFairness : Obligations.EveryCommandEndsUnderFairness := by
  intro s position pending fair turns power
  have hs : FairlyRunning s := ⟨turns, fair, position, pending, power⟩
  suffices EndsWithin (1 + 149) s from this
  obtain ⟨k, t, hk, hrun, ht, idle, -, -, -⟩ := hs.idle_within_one
  refine .of_run hk hrun ?_
  cases hb : t.busy with
  | false => exact .of_not_busy _ hb
  | true =>
    obtain ⟨i, p, u, h⟩ := ht.atUop hb
    have howes : Owes t.cfg i t.ph t.mph _ := ⟨p, h.prim, h.mph_lt, rfl⟩
    obtain ⟨k, v, hk, hrun, hv⟩ := ht.ends idle h.running_eq howes
    have := howes.length_le
    exact ⟨k, v, by omega, hrun, hv⟩

end Sys2Proof.Machine
end

section
/-! SUPPORT. The obligation about the faults of compound commands (42_sequencer.md R195): the table of R195 for one
measurement and for the whole command, that every μop keeps it, and that no check fails where it holds. -/

namespace Sys2Proof.Machine

/-! ## The μops that check -/

theorem checks_of_movesTxn {u : Uop} (h : u.movesTxn = true) : u.checks = true := by
  cases u <;> simp_all [Uop.movesTxn, Uop.checks]

theorem checks_of_raises {u : Uop} {s : State} {f : FaultCode} (h : doUop u s = .raises f) : u.checks = true := by
  rcases doUop_raises h with ⟨_, rfl, -⟩ | ⟨_, rfl, -⟩ | ⟨rfl, -⟩ | ⟨-, ⟨_, rfl, -⟩ | ⟨_, rfl, -⟩ | ⟨_, rfl, -⟩⟩ <;> rfl

/-- The one μop of a primitive that has one. -/
theorem only_uop {p : Instr} {m : Nat} {u v : Uop} (hus : uopsOf p = [v]) (hu : (uopsOf p)[m]? = some u) : u = v := by
  simpa [hus] using List.mem_of_getElem? hu

/-- A CK that completes found EN = 1 and its cell of the table (R130, R131). -/
theorem doUop_ckBus_done {c : BusCmd} {s t : State} (h : doUop (.ckBus c) s = .done t) :
    s.en = true ∧ ∃ n, txnTable c s.txn = .ok n ∧ t = ckClears c { s with txn := n } := by
  simpa using doUop_done h

/-! ## What the driver's updates do to the valid bits (R36) -/

@[simp] theorem ckClears_vB0 (c : BusCmd) (s : State) : (ckClears c s).vB0 = (!decide (c = .start) && s.vB0) := by
  cases c <;> rfl

@[simp] theorem ckClears_vB1 (c : BusCmd) (s : State) : (ckClears c s).vB1 = (!decide (c = .start) && s.vB1) := by
  cases c <;> rfl

@[simp] theorem writeByteReg_vB0 (d : Bool) (v : Byte) (s : State) : (writeByteReg d v s).vB0 = (!d || s.vB0) := by
  cases d <;> rfl

@[simp] theorem writeByteReg_vB1 (d : Bool) (v : Byte) (s : State) : (writeByteReg d v s).vB1 = (d || s.vB1) := by
  cases d <;> rfl

@[simp] theorem writeRaw_vRawRh (r : Reading) (v : BitVec 14) (s : State) :
    (writeRaw r v s).vRawRh = (decide (r = .rh) || s.vRawRh) := by cases r <;> rfl

@[simp] theorem writeRaw_vRawT (r : Reading) (v : BitVec 14) (s : State) :
    (writeRaw r v s).vRawT = (decide (r = .t) || s.vRawT) := by cases r <;> rfl

@[simp] theorem writeDecoded_vRh (r : Reading) (s : State) :
    (writeDecoded r s).vRh = (decide (r = .rh) || s.vRh) := by cases r <;> rfl

@[simp] theorem writeDecoded_vTc (r : Reading) (s : State) :
    (writeDecoded r s).vTc = (decide (r = .t) || s.vTc) := by cases r <;> rfl

/-- No μop clears a valid bit of RAW_RH, RAW_T, RH or TC (R190). -/
theorem doUop_keeps_readings_valid {u : Uop} {s t : State} (h : doUop u s = .done t) :
    (s.vRawRh = true → t.vRawRh = true) ∧ (s.vRawT = true → t.vRawT = true) ∧ (s.vRh = true → t.vRh = true) ∧
      (s.vTc = true → t.vTc = true) := by
  rcases doUop_done h with ⟨-, -, rfl⟩ | ⟨_, _, -, -, -, rfl⟩ | ⟨_, -, -, rfl⟩ | ⟨_, -, rfl⟩ | ⟨_, -, -, rfl⟩ |
    ⟨_, -, rfl⟩ | ⟨_, -, rfl⟩ | ⟨_, -, rfl⟩ | ⟨_, -, rfl⟩ | ⟨_, -, rfl⟩ | ⟨_, -, -, -, rfl⟩ | ⟨_, -, -, rfl⟩ |
    ⟨_, -, -, rfl⟩ <;>
    simp +contextual

/-- ASM writes its raw register and no other (R161, R162). -/
theorem doUop_asm_done {r : Reading} {s t : State} (h : doUop (.asm r) s = .done t) :
    t = writeRaw r (raw14 s.b0 s.b1) s := by
  rw [doUop_asm] at h
  split_ifs at h
  simpa using h.symm

/-- FMT emits its string and writes no register (R172, R174). -/
theorem doUop_fmt_done {r : Reading} {s t : State} (h : doUop (.fmt r) s = .done t) : t = emit (readingStr r s) s := by
  rw [doUop_fmt] at h
  split_ifs at h
  simpa using h.symm

theorem rawValid_doUop {u : Uop} {s t : State} (h : doUop u s = .done t) {r : Reading} (hr : rawValid r s = true) :
    rawValid r t = true := by
  obtain ⟨hrh, ht, -⟩ := doUop_keeps_readings_valid h
  cases r
  · exact hrh hr
  · exact ht hr

/-- The valid bit of B[d] (R36, R103). -/
def byteValid (d : Bool) (s : State) : Bool := if d then s.vB1 else s.vB0

/-- Only the CK of START clears the valid bits of B0 and B1 (R143). -/
theorem byteValid_doUop {u : Uop} {s t : State} (h : doUop u s = .done t) (hu : u ≠ .ckBus .start) {d : Bool}
    (hd : byteValid d s = true) : byteValid d t = true := by
  have kept : (s.vB0 = true → t.vB0 = true) ∧ (s.vB1 = true → t.vB1 = true) := by
    rcases doUop_done h with ⟨-, -, rfl⟩ | ⟨c, _, rfl, -, -, rfl⟩ | ⟨_, -, -, rfl⟩ | ⟨_, -, rfl⟩ | ⟨_, -, -, rfl⟩ |
      ⟨_, -, rfl⟩ | ⟨_, -, rfl⟩ | ⟨_, -, rfl⟩ | ⟨_, -, rfl⟩ | ⟨_, -, rfl⟩ | ⟨_, -, -, -, rfl⟩ | ⟨_, -, -, rfl⟩ |
    ⟨_, -, -, rfl⟩ <;>
      simp_all +contextual
  cases d
  · exact kept.1 hd
  · exact kept.2 hd

/-! ## One measurement (R194, R195) -/

/-- The PH at which a measurement receives B[d] (R194). -/
def recvPhase (d : Bool) : Nat := if d then 6 else 5

/-- At PH `j`, MPH `m` of a measurement B[d] is received: its RDATA, at MPH 4, is past (R139). -/
def Received (d : Bool) (j m : Nat) : Prop := recvPhase d < j ∨ j = recvPhase d ∧ 5 ≤ m

/-- R195's table at PH `j`, MPH `m` of the measurement of `r`; PH 11 is its end. -/
structure MeasPhase (r : Reading) (j m : Nat) (s : State) : Prop where
  txn : s.txn = measTxn (if m = 0 then j else j + 1)
  bytes : ∀ d, Received d j m → byteValid d s = true
  raw : j = 10 → rawValid r s = true

theorem measPhase_iff (r : Reading) (j m : Nat) (s : State) :
    MeasPhase r j m s ↔ s.txn = measTxn (if m = 0 then j else j + 1) ∧ (5 < j ∨ j = 5 ∧ 5 ≤ m → s.vB0 = true) ∧
      (6 < j ∨ j = 6 ∧ 5 ≤ m → s.vB1 = true) ∧ (j = 10 → rawValid r s = true) :=
  ⟨fun ⟨txn, bytes, raw⟩ => ⟨txn, bytes false, bytes true, raw⟩,
    fun ⟨txn, b0, b1, raw⟩ => ⟨txn, Bool.forall_bool.2 ⟨b0, b1⟩, raw⟩⟩

/-- What R195's table says past the μop at PH `j`, MPH `m`, wherever the advance goes. -/
structure MeasPassed (r : Reading) (j m : Nat) (s : State) : Prop where
  txn : s.txn = measTxn (j + 1)
  bytes : ∀ d, Received d j (m + 1) → byteValid d s = true
  raw : 9 ≤ j → rawValid r s = true
  decoded : j = 10 → decodedValid r s = true

/-- The primitives of a measurement: eight whose CK is a cell of the transaction table that the phase meets, and three
that do not touch the bus (R194, R195). -/
theorem measList_at {c : Config} {r : Reading} {j : Nat} {p : Instr} (hp : (measList c r)[j]? = some p) :
    (∃ k, j < 8 ∧ (uopsOf p)[0]? = some (.ckBus k) ∧ txnTable k (measTxn j) = .ok (measTxn (j + 1))) ∨
    (j = 8 ∧ uopsOf p = [.dly measDelayMs]) ∨ (j = 9 ∧ uopsOf p = [.asm r]) ∨ (j = 10 ∧ uopsOf p = [.dec r]) := by
  obtain ⟨hj, rfl⟩ := List.getElem?_eq_some_iff.1 hp
  have address (isRead : Bool) : txnTable (.send (addressByte c.sensorAddr7 isRead)) .addr = _ :=
    txnTable_send_addr (addressByte_direction ..)
  have hlt : j < 11 := hj
  match j, hlt with
  | 0, _ | 2, _ | 3, _ | 5, _ | 6, _ | 7, _ => exact .inl ⟨_, by decide, rfl, rfl⟩
  | 1, _ => exact .inl ⟨_, by decide, rfl, address false⟩
  | 4, _ => exact .inl ⟨_, by decide, rfl, address true⟩
  | 8, _ => exact .inr (.inl ⟨rfl, rfl⟩)
  | 9, _ => exact .inr (.inr (.inl ⟨rfl, by cases r <;> rfl⟩))
  | 10, _ => exact .inr (.inr (.inr ⟨rfl, by cases r <;> rfl⟩))

/-- The two receptions of a measurement (R194). -/
theorem measList_recvPhase (c : Config) (r : Reading) (d : Bool) :
    (measList c r)[recvPhase d]? = some (.recv (!d) d) := by cases d <;> rfl

/-- START is the first primitive of a measurement and no other (R194). -/
theorem measList_start {c : Config} {r : Reading} {j : Nat} (hp : (measList c r)[j]? = some .start) : j = 0 := by
  obtain ⟨hj, h⟩ := List.getElem?_eq_some_iff.1 hp
  have only_first : ∀ p ∈ (measList c r).tail, p ≠ .start := by cases r <;> simp [measList, asmInstr, decInstr]
  cases j with
  | zero => rfl
  | succ j => exact absurd rfl (only_first _ (List.mem_of_getElem? (by rwa [List.getElem?_tail])))

section
variable {c : Config} {r : Reading} {j m : Nat} {s t : State} {p : Instr} {u : Uop}
  (hp : (measList c r)[j]? = some p) (hu : (uopsOf p)[m]? = some u) (h : MeasPhase r j m s)
include hp hu h

/-- A CK takes TXN from its phase to the next, and no other μop moves it. -/
theorem MeasPhase.txn_doUop (hd : doUop u s = .done t) : t.txn = measTxn (j + 1) := by
  have htxn := h.txn
  cases hm : u.movesTxn with
  | true =>
    obtain rfl : m = 0 := check_stands_first hu (checks_of_movesTxn hm)
    rcases measList_at hp with ⟨k, -, hck, cell⟩ | ⟨rfl, hus⟩ | ⟨rfl, hus⟩ | ⟨rfl, hus⟩
    · obtain rfl := Option.some.inj (hck.symm.trans hu)
      obtain ⟨-, n, htable, rfl⟩ := doUop_ckBus_done hd
      rw [htxn] at htable
      simpa using Except.ok.inj (htable.symm.trans cell)
    all_goals
      obtain rfl := only_uop hus hu
      cases hm
  | false =>
    rw [doUop_keeps_txn hd hm, htxn]
    split_ifs with h0
    · subst h0
      rcases measList_at hp with ⟨k, -, hck, -⟩ | ⟨rfl, -⟩ | ⟨rfl, -⟩ | ⟨rfl, -⟩
      · obtain rfl := Option.some.inj (hck.symm.trans hu)
        cases hm
      all_goals rfl
    · rfl

/-- A byte received stays valid, and RDATA makes one so. -/
theorem MeasPhase.bytes_doUop (hd : doUop u s = .done t) (d : Bool) (hr : Received d j (m + 1)) :
    byteValid d t = true := by
  have late : 5 ≤ recvPhase d := by cases d <;> decide
  by_cases earlier : Received d j m
  · refine byteValid_doUop hd ?_ (h.bytes d earlier)
    rintro rfl
    obtain rfl := (prim_of_ckBus hu).1 rfl
    obtain rfl := measList_start hp
    unfold Received at earlier
    omega
  · obtain ⟨rfl, rfl⟩ : j = recvPhase d ∧ m = 4 := by unfold Received at hr earlier; omega
    obtain rfl := Option.some.inj ((measList_recvPhase c r d).symm.trans hp)
    obtain rfl : .rdata d = u := Option.some.inj hu
    obtain rfl : _ = t := by simpa [doUop_rdata] using hd
    cases d <;> rfl

/-- Past ASM the raw value is valid, and no μop after it clears its valid bit. -/
theorem MeasPhase.raw_doUop (hd : doUop u s = .done t) (hj : 9 ≤ j) : rawValid r t = true := by
  rcases measList_at hp with ⟨-, hlt, -⟩ | ⟨rfl, -⟩ | ⟨rfl, hus⟩ | ⟨rfl, -⟩
  · omega
  · omega
  · obtain rfl := only_uop hus hu
    obtain rfl := doUop_asm_done hd
    cases r <;> rfl
  · exact rawValid_doUop hd (h.raw rfl)

/-- Each μop of a measurement takes R195's table on. -/
theorem MeasPhase.passed (hd : doUop u s = .done t) : MeasPassed r j m t where
  txn := h.txn_doUop hp hu hd
  bytes := h.bytes_doUop hp hu hd
  raw := h.raw_doUop hp hu hd
  decoded := by
    rintro rfl
    rcases measList_at hp with ⟨-, hlt, -⟩ | ⟨h8, -⟩ | ⟨h9, -⟩ | ⟨-, hus⟩
    · omega
    · cases h8
    · cases h9
    · obtain rfl := only_uop hus hu
      obtain rfl := doUop_dec_done hd
      cases r <;> rfl

/-- With EN = 1 no check of a measurement fails where R195's table holds. -/
theorem MeasPhase.doUop_ne_raises (he : s.en = true) (f : FaultCode) : doUop u s ≠ .raises f := by
  intro hr
  obtain rfl : m = 0 := check_stands_first hu (checks_of_raises hr)
  rcases measList_at hp with ⟨k, -, hck, cell⟩ | ⟨rfl, hus⟩ | ⟨rfl, hus⟩ | ⟨rfl, hus⟩
  · obtain rfl := Option.some.inj (hck.symm.trans hu)
    simp [doUop_ckBus_ok he h.txn cell] at hr
  · obtain rfl := only_uop hus hu
    cases hr
  · obtain rfl := only_uop hus hu
    have hb0 : s.vB0 = true := h.bytes false (.inl (by decide))
    have hb1 : s.vB1 = true := h.bytes true (.inl (by decide))
    simp [doUop_asm, hb0, hb1] at hr
  · obtain rfl := only_uop hus hu
    simp [doUop_dec, h.raw rfl] at hr

end

/-! ## Where the measurement goes on -/

section
variable {r : Reading} {j m : Nat} {s : State} (h : MeasPassed r j m s)
include h

/-- The next μop of the same primitive. -/
theorem MeasPassed.next_uop : MeasPhase r j (m + 1) s :=
  ⟨h.txn, h.bytes, fun hj => h.raw (by omega)⟩

/-- The first μop of the next primitive, or the measurement's end. -/
theorem MeasPassed.next_prim {c : Config} {p : Instr} (hp : (measList c r)[j]? = some p)
    (hm : m + 1 = (uopsOf p).length) : MeasPhase r (j + 1) 0 s := by
  refine ⟨h.txn, fun d hd => h.bytes d ?_, fun hj => h.raw (by omega)⟩
  by_cases hj : j = recvPhase d
  · subst hj
    obtain rfl := Option.some.inj ((measList_recvPhase c r d).symm.trans hp)
    exact .inr ⟨rfl, by rw [hm]; exact (by decide : 5 ≤ 7)⟩
  · unfold Received at hd ⊢
    omega

end

/-! ## The compound command (R194, R195) -/

/-- The measurement that PH `k` of a compound command belongs to, or comes after (R194). -/
def phaseReading (i : Instr) (k : Nat) : Reading := if i = .measT ∨ 11 ≤ k then .t else .rh

/-- The PH in its measurement of PH `k` of a compound command; 11 in the strings after it (R194). -/
def phaseInMeas (k : Nat) : Nat := if k < 22 then k % 11 else 11

/-- The table of R195, by the table of the measurement and what the measurements before it have left. -/
theorem phaseOk_iff (i : Instr) (s : State) :
    s.phaseOk i = true ↔ s.en = true ∧ MeasPhase (phaseReading i s.ph.toNat) (phaseInMeas s.ph.toNat) s.mph.toNat s ∧
      (11 ≤ s.ph.toNat → s.vRh = true) ∧ (22 ≤ s.ph.toNat → s.vTc = true) := by
  have hm : s.mph = 0 ↔ s.mph.toNat = 0 := by rw [← BitVec.toNat_inj]; rfl
  have raw_valid : rawValid (phaseReading i s.ph.toNat) s =
      if i = .measT ∨ 11 ≤ s.ph.toNat then s.vRawT else s.vRawRh := by
    unfold phaseReading; split_ifs <;> rfl
  have not_received (a j m : Nat) : (j < a ∨ j = a ∧ m < 5) ↔ ¬(a < j ∨ j = a ∧ 5 ≤ m) := by omega
  have not_converting : s.ph.toNat % 11 < 10 ↔ ¬s.ph.toNat % 11 = 10 := by omega
  rw [measPhase_iff, raw_valid]
  simp only [State.phaseOk, phaseInMeas, hm, Bool.and_eq_true, Bool.or_eq_true, beq_iff_eq, decide_eq_true_eq,
    not_received]
  by_cases hk : s.ph.toNat < 22
  · have not_strings : ¬22 ≤ s.ph.toNat := by omega
    simp only [hk, not_strings, if_true, not_converting, true_or, or_false, false_imp_iff, and_true, ← not_le,
      ← imp_iff_not_or, and_assoc]
  · have strings : 22 ≤ s.ph.toNat := by omega
    have second : 11 ≤ s.ph.toNat := by omega
    have idle : measTxn (if s.mph.toNat = 0 then 11 else 12) = .idle := by split_ifs <;> rfl
    simp [hk, strings, second, second.not_gt, idle, and_assoc]

theorem phaseReading_rh {i : Instr} {k : Nat} (hi : i ≠ .measT) (hk : k < 11) : phaseReading i k = .rh :=
  if_neg (by simp [hi, hk])

theorem phaseReading_t {i : Instr} {k : Nat} (h : i = .measT ∨ 11 ≤ k) : phaseReading i k = .t := if_pos h

theorem phaseInMeas_first {k : Nat} (hk : k < 11) : phaseInMeas k = k := by unfold phaseInMeas; split_ifs <;> omega

theorem phaseInMeas_second {k : Nat} (hk : 11 ≤ k) (hk' : k < 22) : phaseInMeas k = k - 11 := by
  unfold phaseInMeas; split_ifs; omega

theorem phaseInMeas_strings {k : Nat} (hk : 22 ≤ k) : phaseInMeas k = 11 := if_neg (by omega)

/-- A phase of CYCLE is one of its two measurements or one of its two strings (R194). -/
theorem cycle_prim {c : Config} {p : Instr} {k : Nat} (hp : (cycleList c)[k]? = some p) :
    (k < 11 ∧ (measList c .rh)[k]? = some p) ∨ (11 ≤ k ∧ k < 22 ∧ (measList c .t)[k - 11]? = some p) ∨
    (22 ≤ k ∧ uopsOf p = [.fmt (if k = 22 then .rh else .t)]) := by
  have hk : k < 24 := (List.getElem?_eq_some_iff.1 hp).1
  have len (r : Reading) : (measList c r).length = 11 := rfl
  rw [cycleList, List.append_assoc] at hp
  by_cases h1 : k < 11
  · rw [List.getElem?_append_left (by rwa [len])] at hp
    exact .inl ⟨h1, hp⟩
  · rw [List.getElem?_append_right (by rw [len]; omega), len] at hp
    by_cases h2 : k < 22
    · rw [List.getElem?_append_left (by rw [len]; omega)] at hp
      exact .inr (.inl ⟨by omega, h2, hp⟩)
    · refine .inr (.inr ⟨by omega, ?_⟩)
      obtain rfl | rfl : k = 22 ∨ k = 23 := by omega
      · obtain rfl := Option.some.inj hp
        rfl
      · obtain rfl := Option.some.inj hp
        rfl

/-- A phase of a compound command is one of a measurement, or one of CYCLE's two strings (R194). -/
theorem compound_prim {c : Config} {i p : Instr} {k : Nat} (hi : isCompound i = true)
    (hp : (primsOf c i)[k]? = some p) :
    (k < 22 ∧ (measList c (phaseReading i k))[phaseInMeas k]? = some p) ∨
    (22 ≤ k ∧ uopsOf p = [.fmt (if k = 22 then .rh else .t)]) := by
  cases i with
  | measRh =>
    have hk : k < 11 := (List.getElem?_eq_some_iff.1 hp).1
    exact .inl ⟨by omega, by rwa [phaseReading_rh (i := .measRh) (by simp) hk, phaseInMeas_first hk]⟩
  | measT =>
    have hk : k < 11 := (List.getElem?_eq_some_iff.1 hp).1
    exact .inl ⟨by omega, by rwa [phaseReading_t (.inl rfl), phaseInMeas_first hk]⟩
  | cycle =>
    rcases cycle_prim hp with ⟨hk, hp⟩ | ⟨hk, hk', hp⟩ | strings
    · exact .inl ⟨by omega, by rwa [phaseReading_rh (i := .cycle) (by simp) hk, phaseInMeas_first hk]⟩
    · exact .inl ⟨hk', by rwa [phaseReading_t (.inr hk), phaseInMeas_second hk hk']⟩
    · exact .inr strings
  | _ => cases hi

/-- At the start of a measurement the table asks for no transaction and no register. -/
theorem measPhase_start_iff (r : Reading) (s : State) : MeasPhase r 0 0 s ↔ s.txn = .idle := by
  simp [measPhase_iff, measTxn]

/-- At its end the transaction is closed, and both bytes are valid. -/
theorem measPhase_end_iff (r : Reading) (m : Nat) (s : State) :
    MeasPhase r 11 m s ↔ s.txn = .idle ∧ s.vB0 = true ∧ s.vB1 = true := by
  have idle : measTxn (if m = 0 then 11 else 12) = .idle := by split_ifs <;> rfl
  simp [measPhase_iff, idle]

/-- The advance leaves the registers of the table alone (R46). -/
theorem MeasPhase.advance {r : Reading} {j m : Nat} {s : State} (h : MeasPhase r j m s) (nP nU : Nat) :
    MeasPhase r j m (Machine.advance nP nU s) := by
  rw [measPhase_iff] at h ⊢
  cases r <;> simpa [rawValid] using h

/-- Past the last μop of a measurement's primitive the table holds at the next phase: of the same measurement, of the
one that follows it, or of the strings. -/
theorem MeasPassed.next_phase {i : Instr} {k m : Nat} {c : Config} {p : Instr} {s : State} (hk : k < 22)
    (h : MeasPassed (phaseReading i k) (phaseInMeas k) m s)
    (hp : (measList c (phaseReading i k))[phaseInMeas k]? = some p) (hm : m + 1 = (uopsOf p).length) :
    MeasPhase (phaseReading i (k + 1)) (phaseInMeas (k + 1)) 0 s := by
  have next := h.next_prim hp hm
  by_cases h10 : k = 10
  · subst h10
    exact (measPhase_start_iff _ s).2 ((measPhase_end_iff _ 0 s).1 next).1
  · have same_reading : phaseReading i (k + 1) = phaseReading i k := by
      simp only [phaseReading, show 11 ≤ k + 1 ↔ 11 ≤ k by omega]
    have next_index : phaseInMeas (k + 1) = phaseInMeas k + 1 := by
      unfold phaseInMeas; split_ifs <;> omega
    rwa [same_reading, next_index]

section
variable {s t : State} {i p : Instr} {u : Uop} (h : AtUop s i p u)
include h

/-- An advance that does not end the command keeps it in CUR (R46). -/
theorem cur_advance (hd : doUop u s = .done t)
    (hbusy : (advance (primsOf s.cfg i).length (uopsOf p).length t).busy = true) :
    (advance (primsOf s.cfg i).length (uopsOf p).length t).cur = s.cur := by
  rcases advance_position h.prim h.uop hd with ⟨-, -, -, -, hcur⟩ | ⟨-, -, -, -, -, hcur⟩ | ⟨-, -, -, -, hb, -⟩
  · exact hcur
  · exact hcur
  · simp [hb] at hbusy

/-- A first check that passes finds R195's table in place (R130, R133). -/
theorem phaseOk_of_first_check (hi : isCompound i = true) (hph : s.ph = 0) (hmph : s.mph = 0)
    (hd : doUop u s = .done t) : s.phaseOk i = true := by
  have starts : (primsOf s.cfg i)[0]? = some .start := by
    cases i with
    | measRh | measT | cycle => rfl
    | _ => cases hi
  obtain rfl : .start = p := by simpa [hph, starts] using h.prim
  obtain rfl : .ckBus .start = u := by simpa [hmph, uopsOf] using h.uop
  obtain ⟨en, n, cell, -⟩ := doUop_ckBus_done hd
  have idle : s.txn = .idle := by
    by_contra hopen
    rw [(txnTable_open hopen).1] at cell
    cases cell
  refine (phaseOk_iff i s).2 ⟨en, ?_, by simp [hph], by simp [hph]⟩
  rw [hph, hmph]
  exact (measPhase_start_iff _ s).2 idle

/-- The strings leave the registers of the table alone (R172, R174). -/
theorem phaseOk_advance_string (hk : 22 ≤ s.ph.toNat) {r : Reading} (hus : uopsOf p = [.fmt r])
    (hs : s.phaseOk i = true) (hd : doUop u s = .done t) :
    let n := advance (primsOf s.cfg i).length (uopsOf p).length t
    n.busy = true → n.phaseOk i = true := by
  intro n hbusy
  obtain ⟨en, phase, rh, tc⟩ := (phaseOk_iff i s).1 hs
  obtain rfl := only_uop hus h.uop
  have shown := doUop_fmt_done hd
  rcases advance_position h.prim h.uop hd with ⟨hlt, -⟩ | ⟨-, -, hph, hm, -⟩ | ⟨-, -, -, -, hb, -⟩
  · simp [hus] at hlt
  · rw [phaseInMeas_strings hk, measPhase_end_iff] at phase
    rw [phaseOk_iff, hph, phaseInMeas_strings (by omega), measPhase_end_iff]
    simpa [n, State.en, shown] using ⟨en, phase, fun _ => rh (by omega), fun _ => tc hk⟩
  · simp [n, hb] at hbusy

/-- In a measurement the table goes on by `MeasPassed`, and the end of each leaves its reading valid. -/
theorem phaseOk_advance_meas (hk : s.ph.toNat < 22)
    (hp : (measList s.cfg (phaseReading i s.ph.toNat))[phaseInMeas s.ph.toNat]? = some p) (hs : s.phaseOk i = true)
    (hd : doUop u s = .done t) :
    let n := advance (primsOf s.cfg i).length (uopsOf p).length t
    n.busy = true → n.phaseOk i = true := by
  intro n hbusy
  obtain ⟨en, phase, rh, tc⟩ := (phaseOk_iff i s).1 hs
  have passed := phase.passed hp h.uop hd
  have en' : n.en = true := by simpa [n, State.en] using en_doUop (List.mem_of_getElem? h.uop) hd en
  obtain ⟨-, -, keptRh, keptTc⟩ := doUop_keeps_readings_valid hd
  rw [phaseOk_iff]
  simp only [n, advance_vRh, advance_vTc]
  rcases advance_position h.prim h.uop hd with ⟨-, hm, hph, -⟩ | ⟨hlast, hlt, hph, hm, -⟩ | ⟨-, -, -, -, hb, -⟩
  · rw [hph, hm]
    exact ⟨en', passed.next_uop.advance _ _, fun hk => keptRh (rh hk), fun hk => keptTc (tc hk)⟩
  · rw [hph, hm]
    refine ⟨en', (passed.next_phase hk hp hlast).advance _ _, fun hk' => ?humidity, fun hk' => ?temperature⟩
    case humidity =>
      by_cases h10 : s.ph.toNat = 10
      · have not_measT : i ≠ .measT := by
          rintro rfl
          have hlt : s.ph.toNat + 1 < 11 := hlt
          omega
        have decoded := passed.decoded (by rw [h10]; rfl)
        rwa [phaseReading_rh not_measT (by omega)] at decoded
      · exact keptRh (rh (by omega))
    case temperature =>
      have h21 : s.ph.toNat = 21 := by omega
      have decoded := passed.decoded (by rw [h21]; rfl)
      rwa [phaseReading_t (.inr (by omega))] at decoded
  · simp [n, hb] at hbusy

/-- A μop that completes takes R195's table to the next position, unless it ends the command. -/
theorem phaseOk_advance (hi : isCompound i = true) (hs : s.phaseOk i = true) (hd : doUop u s = .done t)
    (hbusy : (advance (primsOf s.cfg i).length (uopsOf p).length t).busy = true) :
    (advance (primsOf s.cfg i).length (uopsOf p).length t).phaseOk i = true := by
  rcases compound_prim hi h.prim with ⟨hk, hp⟩ | ⟨hk, hus⟩
  · exact phaseOk_advance_meas h hk hp hs hd hbusy
  · exact phaseOk_advance_string h hk hus hs hd hbusy

/-- No check fails where R195's table holds. -/
theorem doUop_ne_raises_of_phaseOk (hi : isCompound i = true) (hs : s.phaseOk i = true) (f : FaultCode) :
    doUop u s ≠ .raises f := by
  obtain ⟨en, phase, rh, tc⟩ := (phaseOk_iff i s).1 hs
  rcases compound_prim hi h.prim with ⟨-, hp⟩ | ⟨hk, hus⟩
  · exact phase.doUop_ne_raises hp h.uop en f
  · obtain rfl := only_uop hus h.uop
    have valid : decodedValid (if s.ph.toNat = 22 then .rh else .t) s = true := by
      split_ifs
      · exact rh (by omega)
      · exact tc hk
    simp [doUop_fmt, valid]

end

/-! ## Every step (R195) -/

theorem compoundOk_iff (s : State) :
    s.compoundOk = true ↔
      ∀ i, s.running = some i → isCompound i = true → (s.ph = 0 ∧ s.mph = 0) ∨ s.phaseOk i = true := by
  unfold State.compoundOk
  cases s.running with
  | none => simp
  | some i => cases hi : isCompound i <;> simp [hi]

theorem compoundOk_of_not_busy {s : State} (hb : s.busy = false) : s.compoundOk = true := by
  simp [compoundOk_iff, running_of_not_busy hb]

/-- A completion step leaves the registers of R195's table alone (R38, R233). -/
theorem phaseOk_periphEffect (op : PeriphOp) (i : Instr) (s : State) : (periphEffect op s).phaseOk i = s.phaseOk i := by
  have en := periphEffect_en op s
  obtain ⟨_, _, _, _, _, _, _, h⟩ := periphEffect_eq op s
  rw [h] at en ⊢
  unfold State.phaseOk
  rw [en]

theorem compoundOk_stepKeeps : StepKeeps fun s => s.compoundOk = true where
  turn hs _ := hs
  uop {s t i p u} hs h hd := by
    rw [compoundOk_iff] at hs ⊢
    intro j hr hj
    obtain ⟨hbusy, -, hcommand⟩ := running_eq_some.1 hr
    obtain rfl : j = i := Except.ok.inj (hcommand.symm.trans (cur_advance h hd hbusy ▸ h.command))
    refine .inr (phaseOk_advance h hj ?_ hd hbusy)
    rcases hs j h.running_eq hj with ⟨hph, hmph⟩ | hs
    · exact phaseOk_of_first_check h hj hph hmph hd
    · exact hs
  fault _ _ _ _ _ := compoundOk_of_not_busy rfl
  periph {s op} hs _ := by
    rw [compoundOk_iff] at hs ⊢
    intro i hr hi
    have same := phaseOk_periphEffect op i s
    obtain ⟨hph, hmph, hbusy, hcur, hhalt, -⟩ := periphEffect_keeps_control op s
    rw [same, hph, hmph]
    rw [running_eq_some, hbusy, hcur, hhalt, ← running_eq_some] at hr
    exact hs i hr hi
  read {s} off hs := by obtain ⟨_, _, h⟩ := hostRead_eq off s; rwa [h]
  issue _ _ _ _ := (compoundOk_iff _).2 fun _ _ _ => .inl ⟨by simp, by simp⟩
  illegal w _ _ _ := compoundOk_of_not_busy rfl
  reset _ _ _ := compoundOk_of_not_busy rfl

/-- Where R195's table holds the driver's turn records no fault. -/
theorem driverTurn_halt_of_phaseOk {s t : State} {i : Instr} (hr : s.running = some i) (hi : isCompound i = true)
    (hs : s.phaseOk i = true) (h : driverTurn s = .next t) : t.halt = false := by
  obtain ⟨hb, hh, hc⟩ := running_eq_some.1 hr
  have command : driverTurn s = exec i s := by simp [driverTurn, hb, hh, hc]
  rw [command, exec_eq_driverStep] at h
  obtain ⟨p, u, hp, hu, ⟨s', hd, rfl⟩ | ⟨-, -, rfl⟩ | ⟨f, hf, -⟩⟩ := driverStep_next h
  · obtain ⟨-, -, -, -, hhalt, -⟩ := doUop_keeps_control hd
    simp [hhalt, hh]
  · exact hh
  · exact absurd hf (doUop_ne_raises_of_phaseOk ⟨hb, hh, hc, hp, hu⟩ hi hs f)

/-- Where R195's table holds no step records a fault: the host cannot issue, and no other agent writes HALT but a
reset. -/
theorem step_halt_of_phaseOk {s t : State} {i : Instr} (hr : s.running = some i) (hi : isCompound i = true)
    (hs : s.phaseOk i = true) (h : step s = .next t) : t.halt = false := by
  obtain ⟨u, hu, h⟩ := step_cases h
  obtain ⟨hr, hs⟩ : u.running = some i ∧ u.phaseOk i = true := by
    rcases hu with rfl | ⟨_, _, -, rfl⟩ <;> exact ⟨hr, hs⟩
  obtain ⟨hb, hh, -⟩ := running_eq_some.1 hr
  rcases h with h | ⟨op, rfl⟩ | ⟨off, rfl⟩ | ⟨w, hidle, rfl⟩ | rfl | ⟨rfl, -⟩
  · exact driverTurn_halt_of_phaseOk hr hi hs h
  · exact (periphTurn_keeps_fault op u).1.trans hh
  · obtain ⟨_, _, h⟩ := hostRead_eq off u
    rw [h]
    exact hh
  · simp [hb] at hidle
  · exact hh
  · rfl

/-- Settles O38: every μop takes R195's table on, and where it holds no check fails. -/
theorem compoundFaultsAtTheFirstCheckOnly : Obligations.CompoundFaultsAtTheFirstCheckOnly := by
  intro s t hs h
  refine ⟨compoundOk_stepKeeps.step hs h, fun i hr hi past => ?_⟩
  have table := ((compoundOk_iff s).1 hs i hr hi).resolve_left fun ⟨hph, hmph⟩ => past.elim (· hph) (· hmph)
  exact step_halt_of_phaseOk hr hi table h

end Sys2Proof.Machine
end
